-- ==== Sys2Proof/Word.lean ====
section
/-! DEFINITION. The plain types of the matrix-scan core: bytes, column and row indices (R10), frame positions (R25), and the
two index lists in the fixed ascending order of R153 and R184. -/

namespace Sys2Proof

/-- Eight bits: the serial frame, SH and Q (R29, R30, R91). -/
abbrev Byte := BitVec 8

/-- A column index, 0 to 7 (R10, R23). -/
abbrev Col := Fin 8

/-- A row index, "natural below 9" (R10, R24). -/
abbrev Row := Fin 9

/-- The index of the next pin event of a frame, 0 to 25 (R25). -/
abbrev FramePos := Fin 26

/-- The columns in sequencer order (R153). -/
def allCols : List Col := [0, 1, 2, 3, 4, 5, 6, 7]

/-- The rows in sampling order (R184). -/
def allRows : List Row := [0, 1, 2, 3, 4, 5, 6, 7, 8]

end Sys2Proof
end

