-- ==== Sys2Proof/Config.lean ====
section
/-! DEFINITION. What an implementation fixes (the OPEN parameters of R6) and the free values of the model: the environment's
inputs (R31, R39, R41) and the reset levels the spec leaves a draw (R27, R29, R30). None has a body: a claim that mentions
one holds for every value of it. -/

namespace Sys2Proof

/-- Whether every key has a series diode (R6, MATRIX_KIND). -/
inductive MatrixKind where
  | isolated
  | unisolated
deriving DecidableEq, Repr, Inhabited

/-- The hardware-fault injection of one row line (R6, STUCK[r]; R166). -/
inductive Stuck where
  | none
  | low
  | high
deriving DecidableEq, Repr, Inhabited

/-- The parameters a step reads (R6, R41). -/
structure Params where
  /-- SETTLE_TICKS, at least 1 (R6, R183). -/
  settleTicks : Nat
  /-- MATRIX_KIND (R6). -/
  matrixKind : MatrixKind
  /-- STUCK[0..8] (R6, R166). -/
  stuck : Vector Stuck 9
deriving DecidableEq, Repr

/-- The key contacts K[c][r] (R31): true while the contact is closed. -/
abbrev Keys := Vector (Vector Bool 9) 8

/-- SETTLE_TICKS less one: SETTLE_TICKS is OPEN, an integer of at least 1 (R6, D6; log 3, DESIGN CHOICE, safe). -/
opaque Config.settleExtra : Nat

/-- MATRIX_KIND of the board (R6; log 3, DESIGN CHOICE, safe). -/
opaque Config.matrixKind : MatrixKind

/-- STUCK[0..8] of the run (R6, R166; log 3, DESIGN CHOICE, safe). -/
opaque Config.stuck : Vector Stuck 9

/-- The parameters of the machine (R6). -/
def Config.params : Params where
  settleTicks := Config.settleExtra + 1
  matrixKind := Config.matrixKind
  stuck := Config.stuck

/-- REPORT_PERIOD, 1000 time-units (R6, R229). -/
def Config.reportPeriod : Nat := 1000

/-- K at step `n` (R31: "supplies afresh at every step, under no law"; log 2, DESIGN CHOICE, safe). -/
opaque Config.keysAt (n : Nat) : Keys

/-- How far NOW moved on before step `n` (R229: NOW is non-decreasing; log 2, DESIGN CHOICE, safe). -/
opaque Config.elapsed (n : Nat) : Nat

/-- The bit that draw(bit) answers at step `n` (R11, R165, R167; log 6, DESIGN CHOICE, safe). -/
opaque Config.drawAt (n : Nat) : Bool

/-- SER after the reset at step `n` (R27: "unspecified (a draw)"; log 4, DESIGN CHOICE). -/
opaque Config.resetSer (n : Nat) : Bool

/-- LAT after the reset at step `n` (R27: "unspecified (a draw)"; log 4, DESIGN CHOICE). -/
opaque Config.resetLat (n : Nat) : Bool

/-- SH after the reset at step `n` (R29: "unspecified (a draw)"; log 4, DESIGN CHOICE). -/
opaque Config.resetSh (n : Nat) : Byte

/-- Q after the reset at step `n` (R30: "unspecified (a draw)"; log 4, DESIGN CHOICE). -/
opaque Config.resetQ (n : Nat) : Byte

end Sys2Proof
end

