-- ==== Sys2Proof/Syntax.lean ====
section
/-! DEFINITION. The closed operation set of R97 as one inductive, one constructor per row of spec/opcode_table.json, and the
three encoded objects of R90. Operands carry the ranges of R10, so that the codes of R99 cannot be written as operations. -/

namespace Sys2Proof

/-- The three output lines of the driver (R27, R95, R120). -/
inductive Line where
  | ser
  | sck
  | lat
deriving DecidableEq, Repr

/-- A pin event: the output line written and the level it is driven to (R95). -/
structure PinEvent where
  line : Line
  level : Bool
deriving DecidableEq, Repr

/-- The operations, in the order of spec/opcode_table.json. -/
inductive Instr where
  /-- `SER 0` (PE 000, R123). -/
  | ser0
  /-- `SER 1` (PE 001, R123). -/
  | ser1
  /-- `SCK0` (PE 010, R125). -/
  | sck0
  /-- `SCK1` (PE 011, R124). -/
  | sck1
  /-- `LAT0` (PE 100, R122). -/
  | lat0
  /-- `LAT1` (PE 101, R126). -/
  | lat1
  /-- `ACT 0` (F8 0x01, R127). -/
  | act0
  /-- `ACT 1` (F8 0x02, R127). -/
  | act1
  /-- `ACT 2` (F8 0x04, R127). -/
  | act2
  /-- `ACT 3` (F8 0x08, R127). -/
  | act3
  /-- `ACT 4` (F8 0x10, R127). -/
  | act4
  /-- `ACT 5` (F8 0x20, R127). -/
  | act5
  /-- `ACT 6` (F8 0x40, R127). -/
  | act6
  /-- `ACT 7` (F8 0x80, R127). -/
  | act7
  /-- `CLR` (F8 0x00, R128). -/
  | clr
  /-- `YIELD` (SEQ 000 000 0000, R187). -/
  | yield
  /-- `ACT c`, phase Activate (SEQ 001 ccc 0000, R182). -/
  | actC (c : Col)
  /-- `TICK`, alias `STL`, phase Settle (SEQ 010 ccc 0000, R183). -/
  | tick (c : Col)
  /-- `SMP c r`, phase Sample (SEQ 011 ccc rrrr, R184). -/
  | smp (c : Col) (r : Row)
  /-- `DEA`, phase Deactivate (SEQ 100 000 0000, R186). -/
  | dea
deriving DecidableEq, Repr

/-- An encoded object of R90: a pin-event label (PE, 3 bits), a serial frame (F8, 8 bits) or a sequencer word (SEQ, 10 bits).
"Every encoded object has one fixed length", and the three formats are told apart by which link they are on, not by a bit. -/
inductive Code where
  | pe (w : BitVec 3)
  | f8 (w : BitVec 8)
  | seq (w : BitVec 10)
deriving DecidableEq, Repr

end Sys2Proof
end

