-- ==== Sys2Proof/Machine/State.lean ====
section
/-! DEFINITION. The state of the machine as plain data: the elements of R20 and nothing else of the spec's, and beside them the
model's own fields (parameters, inputs, step counter, description level, trace, reports). -/

namespace Sys2Proof.Machine

/-- The scanner's phase (R22). -/
inductive Phase where
  | idle
  | act
  | stl
  | smp
  | dea
deriving DecidableEq, Repr

/-- The two description levels of R12: one pin event, tick, sample or yield a step (L0), or one whole operation a step (L1). -/
inductive Level where
  | l0
  | l1
deriving DecidableEq, Repr

/-- The environment's inputs at the coming step (R31, R39, R41; log 2). -/
structure Inputs where
  /-- K, the key contacts this step sees (R31). -/
  keys : Keys
  /-- NOW, in time-units (R39). -/
  now : Nat
  /-- What draw(bit) answers at this step (R11, R165, R167). -/
  draw : Bool
deriving DecidableEq, Repr

/-- The table memory: a list of (address, byte) cells, the address 9*c + r (R61), the byte 1 for a true entry; an unlisted
address reads 0 (log 14). -/
abbrev Memory := List Host.Cell

/-- The label a step adds to the trace (R101, R181): the L0 events, and the three merged steps of L1. -/
inductive Event where
  | pin (e : PinEvent)
  | tick
  | smp (c : Col) (r : Row) (v : Bool)
  | yield
  | act (c : Col)
  | stl
  | clr
deriving DecidableEq, Repr

/-- One line of a report (R230). Header and separator text are OPEN (D23). -/
inductive ReportLine where
  | header
  | columns (cs : List Col)
  | values (r : Row) (vs : List Bool)
  | separator
deriving DecidableEq, Repr

/-- One report (R230). -/
abbrev Report := List ReportLine

/-- Why the machine stops with a fault. "The set of synchronous exceptions is empty" (R220): there is no constructor, nobody
raises a fault, and no hardware fault is hidden by that (a stuck line shows as data, R221). Safe. -/
inductive Fault where
deriving DecidableEq, Repr

/-- Why the model gives no next state. -/
inductive Refusal where
  /-- Raised by a dispatch arm of an operation that has no meaning yet; no arm raises it. Safe. -/
  | notModelled (mnemonic : String)
  /-- Raised by `reporterRead` while PH is not IDLE, and there by YIELD when the gate would have the Reporter read: "a read
  attempted then is refused, not answered" (R63, U9). Safe. -/
  | reporterOutsideIdle
  /-- Raised by `reporterRead` for c above 7 or r above 8 (R66, U9). Safe. -/
  | reporterOutOfRange
  /-- Raised by YIELD when NOW is below LAST: "a model refuses a non-monotonic NOW" (U13, R229). Safe. -/
  | clockWentBack
  /-- Raised by `step` when PH, COL, ROW pack into no legal sequencer word (R99, U8). Safe. -/
  | unreachablePosition
  /-- Raised by `launch` when a boot requirement of R266 is not met (U7). Safe. -/
  | bootRequirement
deriving DecidableEq, Repr

/-- The state. The first twelve fields are the elements of R20, in its order; the rest are the model's own. -/
structure State where
  /-- SNAP, the 8x9 snapshot table (R21). -/
  snap : Memory
  /-- PH (R22). -/
  ph : Phase
  /-- COL (R23). -/
  col : Col
  /-- ROW (R24). -/
  row : Row
  /-- DPOS (R25). -/
  dpos : FramePos
  /-- STL, the Settle steps still to take (R26). -/
  stl : Nat
  /-- SER, the serial-data line (R27). -/
  ser : Bool
  /-- SCK, the shift-clock line (R27). -/
  sck : Bool
  /-- LAT, the latch-enable line (R27). -/
  lat : Bool
  /-- SH, the device's serial stage (R29). -/
  sh : Byte
  /-- Q, the device's latched outputs, the column lines (R30). -/
  q : Byte
  /-- LAST, the Reporter's last-report timestamp (R39). -/
  last : Nat
  /-- The parameters of the run (R6, R41; log 3). -/
  par : Params
  /-- The environment's inputs at the coming step (R41; log 2). -/
  inp : Inputs
  /-- The index of the coming step among the free values (log 2). -/
  tick : Nat
  /-- How many steps have passed since the last commit, or since reset where none was (R162 case 2, R40; log 8). -/
  since : Nat
  /-- The description level `step` runs at (R12; log 1). -/
  level : Level
  /-- The events so far, newest first (R181; log 13). -/
  trace : List Event
  /-- The reports emitted so far, newest first (R229, R230; log 13). -/
  reports : List Report
deriving DecidableEq, Repr

/-- The inputs the environment supplies at step `n` when nothing came before (log 2). -/
def Inputs.first (n : Nat) : Inputs where
  keys := Config.keysAt n
  now := Config.elapsed n
  draw := Config.drawAt n

/-- The state after a reset at step `n` (R261): the reset column of R20, with SER, LAT, SH and Q draws (log 4). -/
def State.resetAt (n : Nat) : State where
  snap := []
  ph := .act
  col := 0
  row := 0
  dpos := 0
  stl := 0
  ser := Config.resetSer n
  sck := false
  lat := Config.resetLat n
  sh := Config.resetSh n
  q := Config.resetQ n
  last := 0
  par := Config.params
  inp := Inputs.first n
  tick := n
  since := 0
  level := .l0
  trace := []
  reports := []

/-- The machine right after reset (R261). -/
def State.reset : State := State.resetAt 0

end Sys2Proof.Machine
end

