-- ==== Sys2Proof/Machine/Flags.lean ====
section
/-! DEFINITION. The core has no status flag (R37). The two combinational conditions the spec derives from PH stand here. -/

namespace Sys2Proof.Machine

/-- `idle`, "true exactly when PH = IDLE, a combinational function of PH and not a stored flag" (R37). -/
def idle (s : State) : Bool := s.ph == .idle

/-- Whether the row lines are settled: PH = SMP (R40), and no "fewer than SETTLE_TICKS steps since the last commit" (R162 case 2).
In every run the first brings the second with it (R183); where an operation is driven directly, both are asked (log 8). -/
def settled (s : State) : Bool := s.ph == .smp && decide (s.par.settleTicks ≤ s.since)

end Sys2Proof.Machine
end

