-- ==== Sys2Proof/WellFormed.lean ====
section
/-! DEFINITION. Which encoded objects are legal, written from R95, R98 and R99 (not from the decoder). Every term of `Instr` is
well formed by its types (R99: "a model's types exclude them"), so the check stands on the words. -/

namespace Sys2Proof

/-- A pin-event label names one of three lines: "PE codes 110 and 111 name no line and never occur" (R99). -/
def peLegal (w : BitVec 3) : Bool := w.toNat < 6

/-- A frame the core sends: one of the eight one-hot patterns or the clear pattern (R92, R98). -/
def f8Legal (w : BitVec 8) : Bool := w == 0#8 || allCols.any fun c => w == 1#8 <<< c.val

/-- A legal sequencer word, by the five patterns of R96: IDLE and DEA carry no operand, ACT and STL carry a column only, SMP
carries a column and a row 0 to 8 (R99). -/
def seqLegal (w : BitVec 10) : Bool :=
  let ph := w.toNat / 128
  let col := w.toNat / 16 % 8
  let row := w.toNat % 16
  if ph = 0 ∨ ph = 4 then col == 0 && row == 0
  else if ph = 1 ∨ ph = 2 then row == 0
  else if ph = 3 then row < 9
  else false

/-- A legal encoded object. -/
def Code.wellFormed : Code → Bool
  | .pe w => peLegal w
  | .f8 w => f8Legal w
  | .seq w => seqLegal w

end Sys2Proof
end

