-- ==== Sys2Proof/Decode.lean ====
section
/-! DEFINITION. The decoder, total on every word of the three formats (R91, R95, R96), rejecting by name (R98, R99), and the
encoder, written from the same encoding tables. -/

namespace Sys2Proof

/-- Why a word names no operation. -/
inductive Reject where
  /-- PE 110 or 111: "name no line and never occur" (R99). -/
  | noSuchLine
  /-- A frame with two or more bits set: "never sent" (R98). -/
  | manyColumns
  /-- PH code 5, 6 or 7 (R99). -/
  | noSuchPhase
  /-- ROW 9 to 15 in SMP (R99). -/
  | rowOutOfRange
  /-- A non-zero COL or ROW in a phase that carries none (R99). -/
  | strayOperand
deriving DecidableEq, Repr

/-- PE[2:1] is the line (0 SER, 1 SCK, 2 LAT), PE[0] the level written (R95). -/
def decodePE (w : BitVec 3) : Except Reject Instr :=
  match (w.extractLsb' 1 2).toNat, w.getLsbD 0 with
  | 0, false => .ok .ser0
  | 0, true => .ok .ser1
  | 1, false => .ok .sck0
  | 1, true => .ok .sck1
  | 2, false => .ok .lat0
  | 2, true => .ok .lat1
  | _, _ => .error .noSuchLine

/-- The nine frames of R92; "the whole frame is data" (R91). -/
def decodeF8 (w : BitVec 8) : Except Reject Instr :=
  if w = 0x00#8 then .ok .clr
  else if w = 0x01#8 then .ok .act0
  else if w = 0x02#8 then .ok .act1
  else if w = 0x04#8 then .ok .act2
  else if w = 0x08#8 then .ok .act3
  else if w = 0x10#8 then .ok .act4
  else if w = 0x20#8 then .ok .act5
  else if w = 0x40#8 then .ok .act6
  else if w = 0x80#8 then .ok .act7
  else .error .manyColumns

/-- SEQ[6:4], the COL field (R96). -/
def seqCol (w : BitVec 10) : Col := ⟨(w.extractLsb' 4 3).toNat, (w.extractLsb' 4 3).isLt⟩

/-- SEQ[3:0], the ROW field as four raw bits (R96). -/
def seqRow (w : BitVec 10) : Nat := (w.extractLsb' 0 4).toNat

/-- SEQ[9:7] is the phase code: IDLE 0, ACT 1, STL 2, SMP 3, DEA 4 (R22, R96). -/
def decodeSEQ (w : BitVec 10) : Except Reject Instr :=
  match (w.extractLsb' 7 3).toNat with
  | 0 => if seqCol w = 0 ∧ seqRow w = 0 then .ok .yield else .error .strayOperand
  | 1 => if seqRow w = 0 then .ok (.actC (seqCol w)) else .error .strayOperand
  | 2 => if seqRow w = 0 then .ok (.tick (seqCol w)) else .error .strayOperand
  | 3 => if h : seqRow w < 9 then .ok (.smp (seqCol w) ⟨seqRow w, h⟩) else .error .rowOutOfRange
  | 4 => if seqCol w = 0 ∧ seqRow w = 0 then .ok .dea else .error .strayOperand
  | _ => .error .noSuchPhase

/-- The decoder. -/
def decode : Code → Except Reject Instr
  | .pe w => decodePE w
  | .f8 w => decodeF8 w
  | .seq w => decodeSEQ w

/-- `SEQ = {PH[2:0], COL[2:0], ROW[3:0]}` (R36, R96). -/
def packSeq (ph : BitVec 3) (c : Col) (r : Row) : BitVec 10 :=
  ph ++ BitVec.ofNat 3 c.val ++ BitVec.ofNat 4 r.val

/-- The encoder, from the encoding column of the tables of R92, R95 and R96. -/
def encode : Instr → Code
  | .ser0 => .pe 0b000#3
  | .ser1 => .pe 0b001#3
  | .sck0 => .pe 0b010#3
  | .sck1 => .pe 0b011#3
  | .lat0 => .pe 0b100#3
  | .lat1 => .pe 0b101#3
  | .act0 => .f8 0b00000001#8
  | .act1 => .f8 0b00000010#8
  | .act2 => .f8 0b00000100#8
  | .act3 => .f8 0b00001000#8
  | .act4 => .f8 0b00010000#8
  | .act5 => .f8 0b00100000#8
  | .act6 => .f8 0b01000000#8
  | .act7 => .f8 0b10000000#8
  | .clr => .f8 0b00000000#8
  | .yield => .seq (packSeq 0b000#3 0 0)
  | .actC c => .seq (packSeq 0b001#3 c 0)
  | .tick c => .seq (packSeq 0b010#3 c 0)
  | .smp c r => .seq (packSeq 0b011#3 c r)
  | .dea => .seq (packSeq 0b100#3 0 0)

/-- The answer of a decoding, less its reason. -/
def decoded (e : Except Reject Instr) : Option Instr :=
  match e with
  | .ok i => some i
  | .error _ => none

/-- The operation the decoder reads from a table row's bits. A row of 3 bits is a PE label, of 8 bits an F8 frame, of 10 bits (16
in whole bytes) a SEQ word. Three bits in whole bytes are 8 as well: an 8-bit word is read as a frame, and where it is no
frame the core sends, as a PE label with zeros above it (log 15, DESIGN CHOICE). -/
def decodeTableWord (nbits w : Nat) : Option Instr :=
  if nbits = 3 then
    if w < 8 then decoded (decode (.pe (BitVec.ofNat 3 w))) else none
  else if nbits = 8 then
    if w < 256 then
      match decode (.f8 (BitVec.ofNat 8 w)) with
      | .ok i => some i
      | .error _ => if w < 8 then decoded (decode (.pe (BitVec.ofNat 3 w))) else none
    else none
  else if nbits = 10 ∨ nbits = 16 then
    if w < 1024 then decoded (decode (.seq (BitVec.ofNat 10 w))) else none
  else none

end Sys2Proof
end

