-- ==== Sys2Proof/Machine/Operands.lean ====
section
/-! DEFINITION. What the operations' operands stand for: the column patterns (R34), the pin events of a frame (R121), the table
addresses (R61), the sequencer word (R36, R96). -/

namespace Sys2Proof.Machine

/-- `CPAT[c] = zext_8(1) << c` (R34, R92). -/
def cpat (c : Col) : Byte := 1#8 <<< c.val

/-- The pattern `clearAllColumns` transmits (R128). -/
def clearPattern : Byte := 0x00#8

/-- The pin event at position `d` of `TRANSMIT(p)` (R121): LAT0 at 0, LAT1 at 25, and for bit i the events SER p[i], SCK1,
SCK0 at 1 + 3i, 2 + 3i, 3 + 3i. -/
def eventAt (p : Byte) (d : FramePos) : PinEvent :=
  if d.val = 0 then ⟨.lat, false⟩
  else if d.val = 25 then ⟨.lat, true⟩
  else if d.val % 3 = 1 then ⟨.ser, p.getLsbD ((d.val - 1) / 3)⟩
  else if d.val % 3 = 2 then ⟨.sck, true⟩
  else ⟨.sck, false⟩

/-- The three events of one bit: data, clock up, clock down (R121; log 19). -/
def bitEvents (b : Bool) : List PinEvent := [⟨.ser, b⟩, ⟨.sck, true⟩, ⟨.sck, false⟩]

/-- `TRANSMIT(p)` as its list of 26 events, "least-significant bit first" (R93, R102, R121). -/
def frameEvents (p : Byte) : List PinEvent :=
  [⟨.lat, false⟩]
    ++ bitEvents (p.getLsbD 0) ++ bitEvents (p.getLsbD 1) ++ bitEvents (p.getLsbD 2) ++ bitEvents (p.getLsbD 3)
    ++ bitEvents (p.getLsbD 4) ++ bitEvents (p.getLsbD 5) ++ bitEvents (p.getLsbD 6) ++ bitEvents (p.getLsbD 7)
    ++ [⟨.lat, true⟩]

/-- The pattern of the frame the scanner has the driver send: CPAT[COL] in ACT, 0x00 in DEA, none elsewhere (R120, R181). -/
def framePattern (s : State) : Option Byte :=
  match s.ph with
  | .act => some (cpat s.col)
  | .dea => some clearPattern
  | .idle | .stl | .smp => none

/-- The pin event T1, T2, T8 or T9 of R181 makes now, if the scanner is in a driver phase. -/
def dueEvent (s : State) : Option PinEvent := (framePattern s).map fun p => eventAt p s.dpos

/-- The linear address of entry (c, r), `9*c + r` (R61). -/
def tblAddr (c : Col) (r : Row) : Nat := 9 * c.val + r.val

/-- PH's code: IDLE 0, ACT 1, STL 2, SMP 3, DEA 4 (R22). -/
def phaseCode : Phase → BitVec 3
  | .idle => 0
  | .act => 1
  | .stl => 2
  | .smp => 3
  | .dea => 4

/-- The sequencer word of the current position (R36, R96). -/
def seqWord (s : State) : BitVec 10 := packSeq (phaseCode s.ph) s.col s.row

end Sys2Proof.Machine
end

