-- ==== Sys2Proof/Machine/Ops.lean ====
section
/-! DEFINITION. The named operations over table, lines, device and sequencer position. There is no exception to take and none to
return from (R220, R224, R225), so no such operation stands here. -/

namespace Sys2Proof.Machine

/-! ## The table memory (R60 to R63) -/

/-- The canonical form: addresses strictly rising, all of them table addresses, and no entry equal to what an unlisted address
reads as (R61: 72 one-bit entries; log 14). -/
abbrev Memory.wf (m : Memory) : Prop :=
  m.Pairwise (fun x y => x.1 < y.1) ∧ ∀ x ∈ m, x.1 < 72 ∧ x.2 = 1#8

/-- The byte at an address: 0 where nothing is listed, the reset contents of R21. -/
def Memory.read : Memory → Nat → Byte
  | [], _ => 0#8
  | x :: m, a => if x.1 = a then x.2 else Memory.read m a

/-- A cell put before the first cell of a higher address. -/
def Memory.insert (x : Host.Cell) : Memory → Memory
  | [] => [x]
  | y :: m => if x.1 < y.1 then x :: y :: m else y :: Memory.insert x m

/-- The byte at one address replaced; writing 0 removes the entry. -/
def Memory.write (m : Memory) (a : Nat) (v : Byte) : Memory :=
  let rest := m.filter fun x => x.1 != a
  if v = 0#8 then rest else Memory.insert (a, v) rest

/-- A KeyState as the byte of a cell (R9: true is 1). -/
def keyByte (v : Bool) : Byte := if v then 1#8 else 0#8

/-- `TblRead(c, r)`: the value of SNAP[c][r] (R11, R61). -/
def tblRead (c : Col) (r : Row) (s : State) : Bool := s.snap.read (tblAddr c r) != 0#8

/-- `TblWrite(c, r, v)`: `SNAP[c][r] <- v` (R11, R62). -/
def tblWrite (c : Col) (r : Row) (v : Bool) (s : State) : State :=
  { s with snap := s.snap.write (tblAddr c r) (keyByte v) }

/-- The Reporter's read port: any entry, only while PH is IDLE; elsewhere, and out of range, refused (R63, R66). -/
def reporterRead (c r : Nat) (s : State) : Except Refusal Bool :=
  if idle s then
    if h : c < 8 ∧ r < 9 then .ok (tblRead ⟨c, h.1⟩ ⟨r, h.2⟩ s) else .error .reporterOutOfRange
  else .error .reporterOutsideIdle

/-- The packed view of one column: bit r is SNAP[c][r]. The view is the model's own, no rule reads it (R65, D13; log 31, DESIGN
CHOICE). -/
def columnWord (c : Col) (s : State) : BitVec 9 := BitVec.ofFnLE fun r : Row => tblRead c r s

/-- The packed view of the table: bit `9*c + r` is SNAP[c][r]. The view is the model's own, no rule reads it (R65, D13; log 31,
DESIGN CHOICE). -/
def tableWord (s : State) : BitVec 72 :=
  BitVec.ofFnLE fun a : Fin 72 => s.snap.read a.val != 0#8

/-! ## The lines and the device (R27, R134) -/

/-- `SH <- {SER, SH[7:1]}`: the bit enters at SH[7], bit 0 is dropped (R29, R134). -/
def shiftIn (b : Bool) (sh : Byte) : Byte := BitVec.cons b (sh.extractLsb' 1 7)

/-- `PinWrite(L, v)`, with the device's reaction in the same step (R11, R134): a shift at a 0-to-1 transition of SCK, a commit
at a 0-to-1 transition of LAT, nothing at any other event. A commit starts the count of steps anew, any other event is one
step of it (R162; log 8). -/
def pinWrite (e : PinEvent) (s : State) : State :=
  match e.line with
  | .ser => { s with ser := e.level, since := s.since + 1 }
  | .sck => { s with
      sck := e.level, sh := if e.level && !s.sck then shiftIn s.ser s.sh else s.sh, since := s.since + 1 }
  | .lat => { s with
      lat := e.level, q := if e.level && !s.lat then s.sh else s.q,
      since := if e.level && !s.lat then 0 else s.since + 1 }

/-- `TRANSMIT(p)` on the lines and the device, for any of the 256 bytes (R121, R132). -/
def transmit (p : Byte) (s : State) : State := (frameEvents p).foldl (fun t e => pinWrite e t) s

/-! ## The sequencer position (R36, R181) -/

/-- `SEQ.START`: `COL <- 0` (R151). -/
def seqStart (s : State) : State := { s with col := 0 }

/-- `SEQ.NEXT`: `COL <- COL + 1`, executed only when COL is below 7 (R152). -/
def seqNext (s : State) : State := { s with col := s.col + 1 }

/-- The position after a frame's last event: to Settle with STL loaded (T2), or to IDLE (T9). Where no frame is the scanner's,
it stays (log 7). -/
def frameDone (s : State) : State :=
  match s.ph with
  | .act => { s with ph := .stl, dpos := 0, stl := s.par.settleTicks }
  | .dea => { s with ph := .idle, dpos := 0 }
  | .idle | .stl | .smp => s

/-- The position after one pin event of the scanner's frame (T1, T2, T8, T9). -/
def frameAdvance (s : State) : State :=
  if s.dpos.val < 25 then { s with dpos := s.dpos + 1 } else frameDone s

/-- A pin event, moving the position on when `here` says that it is the scanner's own (R181; log 7). -/
def pinStep (here : Bool) (e : PinEvent) (s : State) : State :=
  if here then frameAdvance (pinWrite e s) else pinWrite e s

/-- A pin event as an operation of its own: it is the scanner's own when it is the event due (R181). -/
def pinOp (e : PinEvent) (s : State) : State := pinStep (dueEvent s == some e) e s

/-- A whole frame as one L1 operation (R129): it ends the scanner's phase when it is the frame the scanner sends (T1+T2 and T8+T9
merged, R181; log 7). -/
def frameOp (p : Byte) (s : State) : State :=
  if framePattern s = some p then frameDone (transmit p s) else transmit p s

/-- A driver phase's step (R182, R186): the pin event at DPOS at L0, the whole frame at L1; `here` says that the scanner is at
that position. -/
def driverPhase (here : Bool) (p : Byte) (s : State) : State :=
  match s.level with
  | .l0 => pinStep here (eventAt p s.dpos) s
  | .l1 => if here then frameDone (transmit p s) else transmit p s

/-- One step that commits nothing, counted (R162; log 8). -/
def passed (s : State) : State := { s with since := s.since + 1 }

/-- The rest of Settle, `STL` steps of it: STL at 0, to Sample with ROW at 0 (T4, and T3+T4 merged). -/
def settleDone (s : State) : State := { s with stl := 0, row := 0, ph := .smp, since := s.since + s.stl }

/-- One unit of the Settle delay (T3, T4). STL at 0 inside STL is unreachable and ends the phase (log 12). -/
def settleTick (s : State) : State := if 1 < s.stl then passed { s with stl := s.stl - 1 } else settleDone s

/-- The position after a sample (T5, T6, T7). -/
def sampleAdvance (s : State) : State :=
  if s.row.val < 8 then { s with row := s.row + 1 }
  else if s.col.val < 7 then { seqNext s with row := 0, ph := .act }
  else { seqStart s with row := 0, ph := .dea }

/-! ## Reset and boot (R260 to R267) -/

/-- A reset in the middle of a run (R260, R264): every element as R261 says, with fresh draws; wiring and description level are
no state and stay (log 21). -/
def restart (s : State) : State :=
  { State.resetAt (s.tick + 1) with par := s.par, level := s.level }

/-- The boot requirements of R266 that the state shows: SCK at 0 (b), SNAP zeroed (d), LAST at 0 (f). -/
def bootReady (s : State) : Bool := !s.sck && s.snap == [] && s.last == 0

/-- A launch that does not meet the boot requirements is refused: SCK by U7, the table and LAST by the model's choice (log 21). -/
def launch (s : State) : Host.Outcome State Fault Refusal :=
  if bootReady s then .next s else .refused .bootRequirement

end Sys2Proof.Machine
end

