-- ==== Sys2Proof/Machine/Driver.lean ====
section
/-! DEFINITION. The driver's operations: the six pin events (PE, R122 to R126) and the nine frames (F8, R127, R128). -/

namespace Sys2Proof.Machine

/-- `SER 0`: `SER <- 0` (R123). -/
def execSer0 (s : State) : Host.Outcome State Fault Refusal := .next (pinOp ⟨.ser, false⟩ s)

/-- `SER 1`: `SER <- 1` (R123). -/
def execSer1 (s : State) : Host.Outcome State Fault Refusal := .next (pinOp ⟨.ser, true⟩ s)

/-- `SCK0`: `SCK <- 0`, the device does nothing (R125). -/
def execSck0 (s : State) : Host.Outcome State Fault Refusal := .next (pinOp ⟨.sck, false⟩ s)

/-- `SCK1`: `SCK <- 1; SH <- {SER, SH[7:1]}` (R124). -/
def execSck1 (s : State) : Host.Outcome State Fault Refusal := .next (pinOp ⟨.sck, true⟩ s)

/-- `LAT0`: `LAT <- 0`, the device does nothing (R122). -/
def execLat0 (s : State) : Host.Outcome State Fault Refusal := .next (pinOp ⟨.lat, false⟩ s)

/-- `LAT1`: `LAT <- 1; Q <- SH`, and the frame is over (R126). -/
def execLat1 (s : State) : Host.Outcome State Fault Refusal := .next (pinOp ⟨.lat, true⟩ s)

/-- `ACT 0` = `TRANSMIT(CPAT[0])` (R127). -/
def execAct0 (s : State) : Host.Outcome State Fault Refusal := .next (frameOp (cpat 0) s)

/-- `ACT 1` = `TRANSMIT(CPAT[1])` (R127). -/
def execAct1 (s : State) : Host.Outcome State Fault Refusal := .next (frameOp (cpat 1) s)

/-- `ACT 2` = `TRANSMIT(CPAT[2])` (R127). -/
def execAct2 (s : State) : Host.Outcome State Fault Refusal := .next (frameOp (cpat 2) s)

/-- `ACT 3` = `TRANSMIT(CPAT[3])` (R127). -/
def execAct3 (s : State) : Host.Outcome State Fault Refusal := .next (frameOp (cpat 3) s)

/-- `ACT 4` = `TRANSMIT(CPAT[4])` (R127). -/
def execAct4 (s : State) : Host.Outcome State Fault Refusal := .next (frameOp (cpat 4) s)

/-- `ACT 5` = `TRANSMIT(CPAT[5])` (R127). -/
def execAct5 (s : State) : Host.Outcome State Fault Refusal := .next (frameOp (cpat 5) s)

/-- `ACT 6` = `TRANSMIT(CPAT[6])` (R127). -/
def execAct6 (s : State) : Host.Outcome State Fault Refusal := .next (frameOp (cpat 6) s)

/-- `ACT 7` = `TRANSMIT(CPAT[7])` (R127). -/
def execAct7 (s : State) : Host.Outcome State Fault Refusal := .next (frameOp (cpat 7) s)

/-- `CLR` = `TRANSMIT(0x00)` (R128). -/
def execClr (s : State) : Host.Outcome State Fault Refusal := .next (frameOp clearPattern s)

end Sys2Proof.Machine
end

