-- ==== Sys2Proof/Machine/Matrix.lean ====
section
/-! DEFINITION. The row sampler's environment (R160 to R170): which level a row line has. -/

namespace Sys2Proof.Machine

/-- Whether the contact between column `c` and row `r` is closed (R31). -/
def closed (k : Keys) (c : Col) (r : Row) : Bool := (k.get c).get r

/-- The isolated matrix: `OR over c in 0..7 of ( Q[c] AND K[c][r] )` (R164). -/
def isolatedLevel (q : Byte) (k : Keys) (r : Row) : Bool :=
  allCols.any fun c => q.getLsbD c.val && closed k c r

/-- The rows that a closed contact joins to one of the columns. -/
def touchedRows (k : Keys) (cs : List Col) : List Row :=
  allRows.filter fun r => cs.any fun c => closed k c r

/-- The columns, and those that a path of two closed contacts joins to one of them. -/
def spreadOnce (k : Keys) (cs : List Col) : List Col :=
  allCols.filter fun c => cs.contains c || (touchedRows k cs).any fun r => closed k c r

/-- `spreadOnce` so many times over. -/
def spread (k : Keys) : Nat → List Col → List Col
  | 0, cs => cs
  | n + 1, cs => spread k n (spreadOnce k cs)

/-- Whether "a path of closed contacts leads from some high column line to row line r" (R165). Eight rounds reach every column
there is. -/
def reachable (q : Byte) (k : Keys) (r : Row) : Bool :=
  (touchedRows k (spread k 8 (allCols.filter fun c => q.getLsbD c.val))).contains r

/-- Whether (c, r) is the one contact closed in the whole matrix, for some high column `c` (R165 (b)). -/
def soleContact (q : Byte) (k : Keys) (r : Row) : Bool :=
  allCols.any fun c => q.getLsbD c.val && closed k c r &&
    allCols.all fun c' => allRows.all fun r' => !closed k c' r' || (c' == c && r' == r)

/-- The unisolated matrix: 0 where the row is not reachable, 1 under the one closed contact, else a draw (R165). -/
def unisolatedLevel (q : Byte) (k : Keys) (draw : Bool) (r : Row) : Bool :=
  if reachable q k r then (if soleContact q k r then true else draw) else false

/-- `PinRead(r)`, decided by the first case that applies: stuck, unsettled, isolated, unisolated (R162). This is also the level
ROWIN[r] of R28. -/
def pinRead (r : Row) (s : State) : Bool :=
  match s.par.stuck.get r with
  | .high => true
  | .low => false
  | .none =>
    if settled s then
      match s.par.matrixKind with
      | .isolated => isolatedLevel s.q s.inp.keys r
      | .unisolated => unisolatedLevel s.q s.inp.keys s.inp.draw r
    else s.inp.draw

/-- `RD r`: one digital-level read, without side effect (R160, R163). -/
def rd (r : Row) (s : State) : Bool := pinRead r s

/-- `WR c r v`: `SNAP[c][r] <- v` (R210). -/
def wr (c : Col) (r : Row) (v : Bool) (s : State) : State := tblWrite c r v s

end Sys2Proof.Machine
end

