-- ==== Sys2Proof/Machine/Reporter.lean ====
section
/-! DEFINITION. The Reporter's cadence gate and the structure of its report (R228 to R230). -/

namespace Sys2Proof.Machine

/-- The value row of row index `r`: SNAP[0][r] to SNAP[7][r] in column order (R230). -/
def reportRow (s : State) (r : Row) : ReportLine := .values r (allCols.map fun c => tblRead c r s)

/-- One report of SNAP: header, column indices, nine value rows, separator (R230). -/
def report (s : State) : Report :=
  [.header, .columns allCols] ++ allRows.map (reportRow s) ++ [.separator]

/-- Whether the gate opens: `NOW - LAST >= REPORT_PERIOD` (R229). -/
def gateOpen (s : State) : Bool := decide (s.last + Config.reportPeriod ≤ s.inp.now)

/-- The gate: one report and `LAST <- NOW` when it opens (R229). -/
def reporterGate (s : State) : State :=
  if gateOpen s then { s with reports := report s :: s.reports, last := s.inp.now } else s

end Sys2Proof.Machine
end

