-- ==== Sys2Proof/Machine/Scanner.lean ====
section
/-! DEFINITION. The scanner's operations, one per sequencer word (SEQ, R182 to R187). An operation executed away from its place
in the sequence has its effect on lines, device and table and leaves the position (log 7). -/

namespace Sys2Proof.Machine

/-- `YIELD`: the Reporter's gate, then `PH <- ACT` with COL, ROW, DPOS and STL at 0 (R187, T10). A clock below LAST is refused
(U13). Outside IDLE an open gate would have the Reporter read, and that read is refused (R63, U9); a shut gate does nothing
there (log 9). -/
def execYield (s : State) : Host.Outcome State Fault Refusal :=
  if s.inp.now < s.last then .refused .clockWentBack
  else if s.ph = .idle then .next { passed (reporterGate s) with ph := .act, col := 0, row := 0, dpos := 0, stl := 0 }
  else if gateOpen s then .refused .reporterOutsideIdle
  else .next (passed s)

/-- `ACT c`, phase Activate: `TRANSMIT(CPAT[c])`, one pin event at L0, the whole frame at L1 (R182, T1, T2). -/
def execActC (c : Col) (s : State) : Host.Outcome State Fault Refusal :=
  .next (driverPhase (s.ph == .act && s.col == c) (cpat c) s)

/-- `TICK`, phase Settle: STL counts down (T3, T4), the whole phase at L1 (alias `STL`, R183). "Nothing else happens in the
phase", so away from its place it only passes (log 7). -/
def execTick (c : Col) (s : State) : Host.Outcome State Fault Refusal :=
  if s.ph = .stl ∧ s.col = c then
    match s.level with
    | .l0 => .next (settleTick s)
    | .l1 => .next (settleDone s)
  else .next (passed s)

/-- `SMP c r`: `v <- PinRead(r); SNAP[c][r] <- v`, in one step, and on to the next position (R184, T5, T6, T7). -/
def execSmp (c : Col) (r : Row) (s : State) : Host.Outcome State Fault Refusal :=
  let t := passed (wr c r (rd r s) s)
  if s.ph = .smp ∧ s.col = c ∧ s.row = r then .next (sampleAdvance t) else .next t

/-- `DEA`, phase Deactivate: `TRANSMIT(0x00)`, one pin event at L0, the whole frame at L1 (R186, T8, T9). -/
def execDea (s : State) : Host.Outcome State Fault Refusal :=
  .next (driverPhase (s.ph == .dea) clearPattern s)

end Sys2Proof.Machine
end

