-- ==== Sys2Proof/Machine/Dispatch.lean ====
section
/-! DEFINITION. The dispatch: one arm per constructor of Instr. -/

namespace Sys2Proof.Machine

def exec (i : Instr) (s : State) : Host.Outcome State Fault Refusal :=
  match i with
  | .ser0 => Sys2Proof.Machine.execSer0 s
  | .ser1 => Sys2Proof.Machine.execSer1 s
  | .sck0 => Sys2Proof.Machine.execSck0 s
  | .sck1 => Sys2Proof.Machine.execSck1 s
  | .lat0 => Sys2Proof.Machine.execLat0 s
  | .lat1 => Sys2Proof.Machine.execLat1 s
  | .act0 => Sys2Proof.Machine.execAct0 s
  | .act1 => Sys2Proof.Machine.execAct1 s
  | .act2 => Sys2Proof.Machine.execAct2 s
  | .act3 => Sys2Proof.Machine.execAct3 s
  | .act4 => Sys2Proof.Machine.execAct4 s
  | .act5 => Sys2Proof.Machine.execAct5 s
  | .act6 => Sys2Proof.Machine.execAct6 s
  | .act7 => Sys2Proof.Machine.execAct7 s
  | .clr => Sys2Proof.Machine.execClr s
  | .yield => Sys2Proof.Machine.execYield s
  | .actC c => Sys2Proof.Machine.execActC c s
  | .tick c => Sys2Proof.Machine.execTick c s
  | .smp c r => Sys2Proof.Machine.execSmp c r s
  | .dea => Sys2Proof.Machine.execDea s

end Sys2Proof.Machine
end

