-- ==== Sys2Proof/Machine/Fetch.lean ====
section
/-! DEFINITION. What surrounds an operation in a step. Nothing is fetched from a memory (R76): the position POS says which step is
next (R36), and its leading part packs into the sequencer word. -/

namespace Sys2Proof.Machine

/-- The operation that the position stands at: the reading of its sequencer word (R36, R96, R181; log 17). -/
def fetch (s : State) : Except Reject Instr := decode (.seq (seqWord s))

/-- The pin-event label that the position stands at, at L0 in a driver phase (R95, R121). -/
def peLabel (e : PinEvent) : BitVec 3 :=
  match e.line with
  | .ser => 0b00#2 ++ BitVec.ofBool e.level
  | .sck => 0b01#2 ++ BitVec.ofBool e.level
  | .lat => 0b10#2 ++ BitVec.ofBool e.level

/-- The label a step adds to the trace: the "event" column of R181, and its L1 form. -/
def eventOf (s : State) : Event :=
  match s.level, s.ph with
  | _, .idle => .yield
  | .l0, .act => .pin (eventAt (cpat s.col) s.dpos)
  | .l0, .dea => .pin (eventAt clearPattern s.dpos)
  | .l0, .stl => .tick
  | .l1, .act => .act s.col
  | .l1, .dea => .clr
  | .l1, .stl => .stl
  | _, .smp => .smp s.col s.row (pinRead s.row s)

/-- The inputs of step `n`, after those before (R41): K and the draw afresh, NOW not below what it was (log 2). -/
def nextInputs (n : Nat) (i : Inputs) : Inputs where
  keys := Config.keysAt n
  now := i.now + Config.elapsed n
  draw := Config.drawAt n

/-- What a step adds around its operation: the event goes on the trace, and the environment supplies the next inputs. `s` is the
state before the operation, `t` after it. -/
def endStep (s t : State) : State :=
  { t with trace := eventOf s :: t.trace, inp := nextInputs (s.tick + 1) t.inp, tick := s.tick + 1 }

/-- A pin event's place in the frame of the current phase: level L0, phase `ph`, column 0, event `d` (log 16). -/
def atEvent (ph : Phase) (d : FramePos) (s : State) : State :=
  { s with level := .l0, ph := ph, col := 0, row := 0, dpos := d, stl := 0 }

/-- A whole driver phase at L1 (log 16). -/
def atFrame (ph : Phase) (c : Col) (s : State) : State :=
  { s with level := .l1, ph := ph, col := c, row := 0, dpos := 0, stl := 0 }

/-- The state with the sequencer at the place of operation `i`, so that the next step runs it (log 16). -/
def placeAt (i : Instr) (s : State) : State :=
  match i with
  | .ser0 => atEvent .dea 1 s
  | .ser1 => atEvent .act 1 s
  | .sck0 => atEvent .act 3 s
  | .sck1 => atEvent .act 2 s
  | .lat0 => atEvent .act 0 s
  | .lat1 => atEvent .act 25 s
  | .act0 => atFrame .act 0 s
  | .act1 => atFrame .act 1 s
  | .act2 => atFrame .act 2 s
  | .act3 => atFrame .act 3 s
  | .act4 => atFrame .act 4 s
  | .act5 => atFrame .act 5 s
  | .act6 => atFrame .act 6 s
  | .act7 => atFrame .act 7 s
  | .clr => atFrame .dea 0 s
  | .yield => { s with ph := .idle, col := 0, row := 0, dpos := 0, stl := 0 }
  | .actC c => atFrame .act c s
  | .tick c => { s with ph := .stl, col := c, row := 0, dpos := 0, stl := s.par.settleTicks }
  | .smp c r => { s with ph := .smp, col := c, row := r, dpos := 0, stl := 0 }
  | .dea => atFrame .dea 0 s

end Sys2Proof.Machine
end

