-- ==== Sys2Proof/Machine/Step.lean ====
section
/-! DEFINITION. One step of the machine: the operation the position stands at, and what a step adds around it (R181). -/

namespace Sys2Proof.Machine

/-- One step (R181). A position that is no legal sequencer word is refused (R99, U8; log 11). -/
def step (s : State) : Host.Outcome State Fault Refusal :=
  match fetch s with
  | .error _ => .refused .unreachablePosition
  | .ok i =>
    match exec i s with
    | .next t => .next (endStep s t)
    | .fault f => .fault f
    | .refused r => .refused r

/-- The state whose next step runs the operation that a table row's bits encode (log 16); bits that encode none change
nothing. -/
def State.withFetchWord (s : State) (nbits w : Nat) : State :=
  match decodeTableWord nbits w with
  | some i => placeAt i s
  | none => s

end Sys2Proof.Machine
end

