-- ==== Sys2Proof/Safety.lean ====
section
/-! DEFINITION. What a safe run of the core is, in the terms the claims use: the invariants of R42 and R189, the ownership of R43,
runs of many steps, and the correspondence of the two description levels. -/

namespace Sys2Proof.Machine

/-- `n` steps (R71: one total order), stopping at the first stop. -/
def stepN : Nat → State → Host.Outcome State Fault Refusal
  | 0, s => .next s
  | n + 1, s =>
    match step s with
    | .next t => stepN n t
    | .fault f => .fault f
    | .refused r => .refused r

/-- The invariants of R42, with those of the model's own fields. -/
structure Inv (s : State) : Prop where
  /-- "SETTLE_TICKS >= 1 is required" (R183). -/
  settle_pos : 1 ≤ s.par.settleTicks
  /-- `STL <= SETTLE_TICKS` (R42). -/
  stl_le : s.stl ≤ s.par.settleTicks
  /-- `DPOS /= 0` only if PH is ACT or DEA (R42). -/
  dpos_phase : s.dpos ≠ 0 → s.ph = .act ∨ s.ph = .dea
  /-- `STL /= 0` only if PH = STL (R42). -/
  stl_phase : s.stl ≠ 0 → s.ph = .stl
  /-- In STL a tick is still to take (R181: T3 and T4 cover the phase). -/
  stl_pos : s.ph = .stl → s.stl ≠ 0
  /-- `ROW /= 0` only if PH = SMP (R42). -/
  row_phase : s.row ≠ 0 → s.ph = .smp
  /-- `COL /= 0` only if PH is ACT, STL or SMP (R42). -/
  col_phase : s.col ≠ 0 → s.ph = .act ∨ s.ph = .stl ∨ s.ph = .smp
  /-- `SCK = 0` unless DPOS is a multiple of 3 from 3 to 24 (R42). -/
  sck_low : s.sck = true → s.dpos.val % 3 = 0 ∧ 3 ≤ s.dpos.val ∧ s.dpos.val ≤ 24
  /-- `LAT = 0` whenever `1 <= DPOS <= 25` (R42). -/
  lat_low : 1 ≤ s.dpos.val → s.lat = false
  /-- At L1 no frame is half sent (R12; log 1). -/
  l1_whole : s.level = .l1 → s.dpos = 0
  /-- NOW never falls below LAST (R229). -/
  clock : s.last ≤ s.inp.now
  /-- In Settle, the ticks taken and those still to take make up the delay (R183; log 8). -/
  settling : s.ph = .stl → s.par.settleTicks ≤ s.since + s.stl
  /-- In Sample the delay has passed since the commit (R183, R190; log 8). -/
  delayed : s.ph = .smp → s.par.settleTicks ≤ s.since
  /-- The table is in canonical form (log 14). -/
  table : s.snap.wf

/-- What the column lines and the half-sent frame hold (R129, R189), from the first commit of a sweep on. -/
structure DriveInv (s : State) : Prop where
  /-- While settling and sampling, Q is CPAT[COL] (R189, R190). -/
  column : s.ph = .stl ∨ s.ph = .smp → s.q = cpat s.col
  /-- In IDLE no column is active (R187, R189). -/
  idle_clear : s.ph = .idle → s.q = 0#8
  /-- In ACT for column c above 0 the outgoing column c - 1 is still active (R182, R185). -/
  outgoing : ∀ c : Col, s.ph = .act → s.col.val = c.val + 1 → s.q = cpat c
  /-- In DEA column 7 is still active (R186). -/
  last_column : s.ph = .dea → s.q = cpat 7
  /-- The bits clocked in so far stand at the top of SH in frame order (R94, R129). -/
  sent : ∀ p, framePattern s = some p → ∀ j < s.dpos.val / 3, s.sh.getLsbD (8 - s.dpos.val / 3 + j) = p.getLsbD j
  /-- Between its write and the clock's rise, SER is the slot's bit (R123, R273). -/
  data : ∀ p, framePattern s = some p → s.dpos.val % 3 = 2 → s.ser = p.getLsbD (s.dpos.val / 3)

/-- The value of the newest `SMP c r` in a trace; false, the reset content, where there is none (R21). -/
def lastSample : List Event → Col → Row → Bool
  | [], _, _ => false
  | .smp c' r' v :: es, c, r => if c' = c ∧ r' = r then v else lastSample es c r
  | .pin _ :: es, c, r => lastSample es c r
  | .tick :: es, c, r => lastSample es c r
  | .yield :: es, c, r => lastSample es c r
  | .act _ :: es, c, r => lastSample es c r
  | .stl :: es, c, r => lastSample es c r
  | .clr :: es, c, r => lastSample es c r

/-- `SNAP[c][r]` is "1 when the last sample of (column c, row r) read true" (R21), and the table is in canonical form. -/
structure TableIsTrace (s : State) : Prop where
  entries : ∀ c r, tblRead c r s = lastSample s.trace c r
  table : s.snap.wf

/-- The events of `COLSCAN c` at L0, oldest first, with the values sampled (R102). -/
def columnEvents (ticks : Nat) (v : Col → Row → Bool) (c : Col) : List Event :=
  (frameEvents (cpat c)).map .pin ++ List.replicate ticks .tick ++ allRows.map fun r => .smp c r (v c r)

/-- The events of `SWEEP` at L0, oldest first (R102, R188). -/
def sweepEvents (ticks : Nat) (v : Col → Row → Bool) : List Event :=
  allCols.flatMap (columnEvents ticks v) ++ (frameEvents clearPattern).map .pin

/-- Agreement on the elements of R20, the parameters and the steps since the last commit: what L0 and L1 must agree on at an operation boundary (R12, R129). -/
structure SameCore (s t : State) : Prop where
  snap : s.snap = t.snap
  ph : s.ph = t.ph
  col : s.col = t.col
  row : s.row = t.row
  dpos : s.dpos = t.dpos
  stl : s.stl = t.stl
  ser : s.ser = t.ser
  sck : s.sck = t.sck
  lat : s.lat = t.lat
  sh : s.sh = t.sh
  q : s.q = t.q
  last : s.last = t.last
  par : s.par = t.par
  since : s.since = t.since

/-- The sequencer position is the same (R36). -/
structure SamePosition (s t : State) : Prop where
  ph : s.ph = t.ph
  col : s.col = t.col
  row : s.row = t.row
  dpos : s.dpos = t.dpos
  stl : s.stl = t.stl

/-- What a step adds around the answer of its operation. -/
def finish (s : State) (o : Host.Outcome State Fault Refusal) : Host.Outcome State Fault Refusal :=
  match o with
  | .next u => .next (endStep s u)
  | .fault f => .fault f
  | .refused r => .refused r

/-- The F8 operation of column `c` (R92). -/
def actInstr : Col → Instr
  | 0 => .act0
  | 1 => .act1
  | 2 => .act2
  | 3 => .act3
  | 4 => .act4
  | 5 => .act5
  | 6 => .act6
  | 7 => .act7

/-- The PE operation of a pin event (R95). -/
def pinInstr (e : PinEvent) : Instr :=
  match e.line, e.level with
  | .ser, false => .ser0
  | .ser, true => .ser1
  | .sck, false => .sck0
  | .sck, true => .sck1
  | .lat, false => .lat0
  | .lat, true => .lat1

/-- A wire of the key matrix: a column line or a row line (R169). -/
inductive Wire where
  | col (c : Col)
  | row (r : Row)
deriving DecidableEq, Repr

/-- A path of closed contacts from some high column line to a wire (R165: "the path may pass through other row and column
lines"). -/
inductive Path (q : Byte) (k : Keys) : Wire → Prop where
  | high (c : Col) : q.getLsbD c.val = true → Path q k (.col c)
  | toRow (c : Col) (r : Row) : Path q k (.col c) → closed k c r = true → Path q k (.row r)
  | toCol (c : Col) (r : Row) : Path q k (.row r) → closed k c r = true → Path q k (.col c)

end Sys2Proof.Machine
end

