-- ==== Sys2Proof/Certificates/Slice0/Obligations.lean ====
section
/-! DEFINITION. The statements about the matrix-scan core, each from the rules of spec/ that its docstring names. -/

open Sys2Proof Sys2Proof.Machine

/-! ## Encodings -/

/-- R90, R92, R95, R96: no bit of an encoding is dropped; every operation, with every operand, is read back from its word. -/
def Obligations.DecodeOfEncodeIsTheOperation : Prop :=
  ∀ i : Instr, decode (encode i) = .ok i

/-- R90, R92, R95, R96: each word has one meaning. -/
def Obligations.EncodeOfDecodeIsTheWord : Prop :=
  ∀ (w : Code) (i : Instr), decode w = .ok i → encode i = w

/-- R98, R99: the decoder accepts the legal words and rejects every other. -/
def Obligations.DecoderAcceptsExactlyTheLegalWords : Prop :=
  ∀ w : Code, (∃ i, decode w = .ok i) ↔ w.wellFormed = true

/-- R95: the six labels, and the two codes that name no line (R99). -/
def Obligations.PinEventLabelsOfTheTable : Prop :=
  decode (.pe 0b000#3) = .ok .ser0 ∧ decode (.pe 0b001#3) = .ok .ser1 ∧ decode (.pe 0b010#3) = .ok .sck0
    ∧ decode (.pe 0b011#3) = .ok .sck1 ∧ decode (.pe 0b100#3) = .ok .lat0 ∧ decode (.pe 0b101#3) = .ok .lat1
    ∧ decode (.pe 0b110#3) = .error .noSuchLine ∧ decode (.pe 0b111#3) = .error .noSuchLine

/-- R92, R96, vectors V-E1 and V-E2: words of the frame and sequencer tables. -/
def Obligations.WordsOfTheFrameAndSequencerTables : Prop :=
  decode (.f8 0x00#8) = .ok .clr ∧ decode (.f8 0x08#8) = .ok .act3 ∧ decode (.f8 0x80#8) = .ok .act7
    ∧ decode (.seq 0x000#10) = .ok .yield ∧ decode (.seq 0x0B0#10) = .ok (.actC 3) ∧ decode (.seq 0x130#10) = .ok (.tick 3)
    ∧ decode (.seq 0x1B5#10) = .ok (.smp 3 5) ∧ decode (.seq 0x1F8#10) = .ok (.smp 7 8) ∧ decode (.seq 0x200#10) = .ok .dea
    ∧ decode (.seq 0x1B9#10) = .error .rowOutOfRange ∧ decode (.seq 0x280#10) = .error .noSuchPhase
    ∧ decode (.seq 0x010#10) = .error .strayOperand ∧ decode (.seq 0x081#10) = .error .strayOperand

/-- R93, R121: a frame is 26 events; the one at each position is LAT0 at 0, SER p[i], SCK1, SCK0 at 1 + 3i, 2 + 3i, 3 + 3i, and
LAT1 at 25. -/
def Obligations.FrameIsTwentySixEventsInOrder : Prop :=
  ∀ p : Byte, (frameEvents p).length = 26
    ∧ (frameEvents p)[0]? = some ⟨.lat, false⟩
    ∧ (∀ i : Fin 8, (frameEvents p)[1 + 3 * i.val]? = some ⟨.ser, p.getLsbD i.val⟩
        ∧ (frameEvents p)[2 + 3 * i.val]? = some ⟨.sck, true⟩ ∧ (frameEvents p)[3 + 3 * i.val]? = some ⟨.sck, false⟩)
    ∧ (frameEvents p)[25]? = some ⟨.lat, true⟩
    ∧ ∀ d : FramePos, (frameEvents p)[d.val]? = some (eventAt p d)

/-! ## Pin events -/

/-- R122: LAT0 at the start of the scanner's frame. The field since is the model's own count (log 8). -/
def Obligations.Lat0OpensTheFrame : Prop :=
  encode .lat0 = .pe 0b100#3
    ∧ ∀ s : State, s.ph = .act ∨ s.ph = .dea → s.dpos = 0 → exec .lat0 s = .next {
        s with lat := false, dpos := 1, since := s.since + 1 }

/-- R123: SER b in time slot i of the scanner's frame, b the frame's bit: CPAT[COL] has bit COL set alone, the clear pattern
none. The field since is the model's own count (log 8). -/
def Obligations.SerWritesTheSlotsBit : Prop :=
  encode .ser0 = .pe 0b000#3 ∧ encode .ser1 = .pe 0b001#3
    ∧ ∀ (s : State) (i : Fin 8) (b : Bool), s.dpos.val = 1 + 3 * i.val
      → (s.ph = .act ∧ b = decide (i = s.col)) ∨ (s.ph = .dea ∧ b = false)
      → exec (if b then .ser1 else .ser0) s = .next { s with ser := b, dpos := s.dpos + 1, since := s.since + 1 }

/-- R124: SCK1 in the scanner's frame, from a low clock: SER enters at SH[7], the other bits move one place down. The clock is
low before every SCK1 (R42). The field since is the model's own count (log 8). -/
def Obligations.Sck1ShiftsSerIntoSh : Prop :=
  encode .sck1 = .pe 0b011#3
    ∧ (∀ s : State, s.ph = .act ∨ s.ph = .dea → s.dpos.val % 3 = 2 → s.sck = false
      → exec .sck1 s = .next { s with
          sck := true, sh := (if s.ser then 0x80#8 else 0x00#8) ||| (s.sh >>> 1), dpos := s.dpos + 1,
          since := s.since + 1 })
    ∧ ∀ s : State, Inv s → s.dpos.val % 3 = 2 → s.sck = false

/-- R125: SCK0 in the scanner's frame. The field since is the model's own count (log 8). -/
def Obligations.Sck0LowersTheClock : Prop :=
  encode .sck0 = .pe 0b010#3
    ∧ ∀ s : State, s.ph = .act ∨ s.ph = .dea → s.dpos.val % 3 = 0 → 3 ≤ s.dpos.val
      → exec .sck0 s = .next { s with sck := false, dpos := s.dpos + 1, since := s.since + 1 }

/-- R126, with T2 and T9 of R181: LAT1 at the end of the scanner's frame commits all of SH to Q and ends the phase. The latch
is low before every LAT1 (R42). The field since is the model's own count (log 8). -/
def Obligations.Lat1CommitsAndEndsTheFrame : Prop :=
  encode .lat1 = .pe 0b101#3
    ∧ (∀ s : State, Inv s → s.dpos = 25 → s.lat = false)
    ∧ ∀ s : State, s.dpos = 25 → s.lat = false
      → (s.ph = .act → exec .lat1 s = .next { s with
            lat := true, q := s.sh, dpos := 0, ph := .stl, stl := s.par.settleTicks, since := 0 })
        ∧ (s.ph = .dea → exec .lat1 s = .next { s with lat := true, q := s.sh, dpos := 0, ph := .idle, since := 0 })

/-- R134: the device shifts at a 0-to-1 transition of SCK, commits at a 0-to-1 transition of LAT, and holds at every other pin
event and between events. Every pin event completes in every state, and leaves all but the lines, the device and the position.
The field since is the model's own count (log 8). -/
def Obligations.DeviceReactsToTwoEdgesOnly : Prop :=
  (∀ (e : PinEvent) (s : State), ∃ t, exec (pinInstr e) s = .next t
    ∧ t.sh = (if e = ⟨.sck, true⟩ ∧ s.sck = false then (if s.ser then 0x80#8 else 0x00#8) ||| (s.sh >>> 1) else s.sh)
    ∧ t.q = (if e = ⟨.lat, true⟩ ∧ s.lat = false then s.sh else s.q)
    ∧ t.since = (if e = ⟨.lat, true⟩ ∧ s.lat = false then 0 else s.since + 1)
    ∧ t = { s with
        ser := if e.line = .ser then e.level else s.ser, sck := if e.line = .sck then e.level else s.sck,
        lat := if e.line = .lat then e.level else s.lat, sh := t.sh, q := t.q, ph := t.ph, dpos := t.dpos, stl := t.stl,
        since := t.since })
  ∧ ∀ (i : Instr) (c : Col) (r : Row) (s t : State), i = .tick c ∨ i = .smp c r ∨ i = .yield
    → exec i s = .next t → t.sh = s.sh ∧ t.q = s.q

/-! ## Frames -/

/-- R127, and T1+T2 merged (R181): ACT c as one operation in its place, from a low clock. The field since is the model's own
count (log 8). -/
def Obligations.ActFrameDrivesOneColumn : Prop :=
  ∀ (c : Col) (s : State), s.ph = .act → s.col = c → s.sck = false
    → exec (actInstr c) s = .next { s with
        ser := decide (c.val = 7), sck := false, lat := true, sh := 1#8 <<< c.val, q := 1#8 <<< c.val,
        ph := .stl, dpos := 0, stl := s.par.settleTicks, since := 0 }

/-- R128, and T8+T9 merged (R181): CLR as one operation in its place, from a low clock. The field since is the model's own
count (log 8). -/
def Obligations.ClrDropsEveryColumn : Prop :=
  ∀ s : State, s.ph = .dea → s.sck = false
    → exec .clr s = .next { s with
        ser := false, sck := false, lat := true, sh := 0#8, q := 0#8, ph := .idle, dpos := 0,
        since := 0 }

/-- R127, R128, R132: away from the scanner's place (log 7, the model's choice), ACT c and CLR have their effect on lines and
device and on nothing else. The field since is the model's own count (log 8). -/
def Obligations.FramesAwayFromTheirPlace : Prop :=
  (∀ (c : Col) (s : State), ¬(s.ph = .act ∧ s.col = c) → s.sck = false
    → exec (actInstr c) s = .next { s with
        ser := decide (c.val = 7), sck := false, lat := true, sh := 1#8 <<< c.val, q := 1#8 <<< c.val,
        since := 0 })
  ∧ ∀ s : State, s.ph ≠ .dea → s.sck = false
    → exec .clr s = .next { s with ser := false, sck := false, lat := true, sh := 0#8, q := 0#8, since := 0 }

/-- R129 (the spec's own derivation): what a frame does, for every byte and every prior SH, Q, SER, LAT, from SCK = 0: (a) Q
is unchanged through its first 25 events and p after the 26th; (b) SH = p, SCK = 0, LAT = 1, SER = p[7] at the end; (c)
exactly 8 rises of SCK and one of LAT. The field since is the model's own count (log 8). -/
def Obligations.TransmitCommitsAnyByte : Prop :=
  ∀ (p : Byte) (s : State), s.sck = false
    → (∀ k, k ≤ 25 → (((frameEvents p).take k).foldl (fun t e => pinWrite e t) s).q = s.q)
    ∧ transmit p s = { s with ser := p.getLsbD 7, sck := false, lat := true, sh := p, q := p, since := 0 }
    ∧ ((List.range 26).filter fun k =>
        let before := ((frameEvents p).take k).foldl (fun t e => pinWrite e t) s
        let after := ((frameEvents p).take (k + 1)).foldl (fun t e => pinWrite e t) s
        !before.sck && after.sck).length = 8
    ∧ ((List.range 26).filter fun k =>
        let before := ((frameEvents p).take k).foldl (fun t e => pinWrite e t) s
        let after := ((frameEvents p).take (k + 1)).foldl (fun t e => pinWrite e t) s
        !before.lat && after.lat).length = 1

/-- R133 (the spec's own derivation): the same operation twice leaves the same state as once. S-7: with no key pressed a read is
false before a clear, and after it as soon as SETTLE_TICKS steps have passed; that a clear is executed in SMP, and that PH is
then still SMP, is the model's choice (logs 7 and 8). -/
def Obligations.RepeatedFrameChangesNothing : Prop :=
  (∀ s : State, s.sck = false → ∃ t, exec .clr s = .next t ∧ exec .clr t = .next t)
  ∧ (∀ (r : Row) (s t : State) (n : Nat), s.ph = .smp → s.par.settleTicks ≤ s.since → s.par.settleTicks ≤ n
    → s.par.stuck.get r = .none → (∀ c r', closed s.inp.keys c r' = false)
    → exec .clr s = .next t → pinRead r s = false ∧ pinRead r { t with since := n } = false)
  ∧ ∀ (c : Col) (s : State), s.sck = false → ∃ t, exec (actInstr c) s = .next t ∧ exec (actInstr c) t = .next t

/-! ## The scanner's operations -/

/-- R182, R186: the phase words ACT c and DEA at L1, in their place, from a low clock. The field since is the model's own
count (log 8). -/
def Obligations.DriverPhasesAtL1 : Prop :=
  ∀ s : State, s.level = .l1 → s.sck = false
    → (s.ph = .act → exec (.actC s.col) s = .next { s with
          ser := decide (s.col.val = 7), sck := false, lat := true, sh := 1#8 <<< s.col.val, q := 1#8 <<< s.col.val,
          ph := .stl, dpos := 0, stl := s.par.settleTicks, since := 0 })
      ∧ (s.ph = .dea → exec .dea s = .next { s with
          ser := false, sck := false, lat := true, sh := 0#8, q := 0#8, ph := .idle, dpos := 0,
          since := 0 })

/-- R182, R186, T1, T2, T8, T9: at L0 the phase word runs the pin event of its frame that DPOS names, and the frame's 26th event
ends the phase. -/
def Obligations.DriverPhasesAtL0 : Prop :=
  ∀ (s : State) (e : PinEvent), s.level = .l0
    → (s.ph = .act → (frameEvents (1#8 <<< s.col.val))[s.dpos.val]? = some e
        → exec (.actC s.col) s = exec (pinInstr e) s ∧ ∃ t, exec (.actC s.col) s = .next t
          ∧ (s.dpos.val < 25 → t.ph = .act ∧ t.dpos.val = s.dpos.val + 1 ∧ t.stl = s.stl)
          ∧ (s.dpos.val = 25 → t.ph = .stl ∧ t.dpos.val = 0 ∧ t.stl = s.par.settleTicks))
      ∧ (s.ph = .dea → (frameEvents 0#8)[s.dpos.val]? = some e
        → exec .dea s = exec (pinInstr e) s ∧ ∃ t, exec .dea s = .next t
          ∧ (s.dpos.val < 25 → t.ph = .dea ∧ t.dpos.val = s.dpos.val + 1 ∧ t.stl = s.stl)
          ∧ (s.dpos.val = 25 → t.ph = .idle ∧ t.dpos.val = 0 ∧ t.stl = s.stl))

/-- R183, T3, T4: TICK in its place, at L0 and at L1 (where it is the whole Settle). Nothing else happens. The field since is
the model's own count (log 8). -/
def Obligations.TickCountsSettleDown : Prop :=
  ∀ s : State, s.ph = .stl
    → (s.level = .l0 → 1 < s.stl → exec (.tick s.col) s = .next { s with stl := s.stl - 1, since := s.since + 1 })
      ∧ (s.level = .l0 → s.stl = 1
        → exec (.tick s.col) s = .next { s with stl := 0, row := 0, ph := .smp, since := s.since + 1 })
      ∧ (s.level = .l1 → exec (.tick s.col) s = .next { s with stl := 0, row := 0, ph := .smp, since := s.since + s.stl })

/-- R184, T5, T6, T7: SMP in its place writes the level read to its entry and moves on. The field since is the model's own
count (log 8). -/
def Obligations.SampleWritesAndAdvances : Prop :=
  ∀ s : State, s.ph = .smp
    → (s.row.val < 8 → exec (.smp s.col s.row) s = .next { s with
          snap := s.snap.write (9 * s.col.val + s.row.val) (keyByte (pinRead s.row s)), row := s.row + 1,
          since := s.since + 1 })
      ∧ (s.row.val = 8 → s.col.val < 7 → exec (.smp s.col s.row) s = .next { s with
          snap := s.snap.write (9 * s.col.val + 8) (keyByte (pinRead s.row s)), row := 0, col := s.col + 1, ph := .act,
          since := s.since + 1 })
      ∧ (s.row.val = 8 → s.col.val = 7 → exec (.smp s.col s.row) s = .next { s with
          snap := s.snap.write 71 (keyByte (pinRead s.row s)), row := 0, col := 0, ph := .dea,
          since := s.since + 1 })

/-- R210: SMP c r, in every state, writes the value read to entry (c, r), linear address 9c + r, and to no other; the old
value plays no part; everything but the table and the position stays. The field since is the model's own count (log 8). -/
def Obligations.SampleWritesOneEntry : Prop :=
  ∀ (c : Col) (r : Row) (s : State), ∃ t, exec (.smp c r) s = .next t
    ∧ tblRead c r t = pinRead r s
    ∧ (∀ c' r', ¬(c' = c ∧ r' = r) → tblRead c' r' t = tblRead c' r' s)
    ∧ (∀ a, a ≠ 9 * c.val + r.val → t.snap.read a = s.snap.read a)
    ∧ (∀ m, ∃ u, exec (.smp c r) { s with snap := m } = .next u ∧ tblRead c r u = pinRead r s)
    ∧ t = { s with snap := t.snap, ph := t.ph, col := t.col, row := t.row, since := s.since + 1 }

/-- R166: a stuck line reads its level, whatever Q, K, the matrix and the phase are, and the fault stays for the run. -/
def Obligations.StuckRowReadsItsLevel : Prop :=
  (∀ (c : Col) (r : Row) (s : State),
    (s.par.stuck.get r = .high → ∃ t, exec (.smp c r) s = .next t ∧ tblRead c r t = true)
    ∧ (s.par.stuck.get r = .low → ∃ t, exec (.smp c r) s = .next t ∧ tblRead c r t = false))
  ∧ ∀ s t : State, step s = .next t → t.par = s.par

/-- R167: a read of an unsettled, unstuck line is a draw, unrelated to K: here the step's draw, whatever bit it is (logs 6, 7
and 8). -/
def Obligations.UnsettledReadIsADraw : Prop :=
  ∀ (c : Col) (r : Row) (s : State) (k : Keys) (b : Bool), s.par.stuck.get r = .none
    → s.ph ≠ .smp ∨ s.since < s.par.settleTicks
    → ∃ t, exec (.smp c r) { s with inp := { s.inp with keys := k, draw := b } } = .next t ∧ tblRead c r t = b

/-- R164: an isolated, settled, unstuck line is the OR of Q[c] AND K[c][r], for any Q. -/
def Obligations.IsolatedRowIsTheOrOfItsColumns : Prop :=
  ∀ (c : Col) (r : Row) (s : State), s.ph = .smp → s.par.settleTicks ≤ s.since
    → s.par.stuck.get r = .none → s.par.matrixKind = .isolated
    → ∃ t, exec (.smp c r) s = .next t
      ∧ (tblRead c r t = true ↔ ∃ c' : Col, s.q.getLsbD c'.val = true ∧ (s.inp.keys.get c').get r = true)
      ∧ (∀ c' : Col, s.q = 1#8 <<< c'.val → tblRead c r t = (s.inp.keys.get c').get r)
      ∧ (s.q = 0#8 → tblRead c r t = false)

/-- R165: an unisolated, settled, unstuck line: 0 where no path of closed contacts leads to it from a high column, 1 where its
one contact is the only one closed and its column is high, the step's draw in every other case. -/
def Obligations.UnisolatedRowIsForcedOrDrawn : Prop :=
  ∀ (c : Col) (r : Row) (s : State), s.ph = .smp → s.par.settleTicks ≤ s.since
    → s.par.stuck.get r = .none → s.par.matrixKind = .unisolated
    → ∃ t, exec (.smp c r) s = .next t
      ∧ (¬Path s.q s.inp.keys (.row r) → tblRead c r t = false)
      ∧ ((∃ c' : Col, s.q.getLsbD c'.val = true ∧ closed s.inp.keys c' r = true
            ∧ ∀ c'' r'', closed s.inp.keys c'' r'' = true → c'' = c' ∧ r'' = r) → tblRead c r t = true)
      ∧ (Path s.q s.inp.keys (.row r)
          → (¬∃ c' : Col, s.q.getLsbD c'.val = true ∧ closed s.inp.keys c' r = true
              ∧ ∀ c'' r'', closed s.inp.keys c'' r'' = true → c'' = c' ∧ r'' = r)
          → tblRead c r t = s.inp.draw)

/-- R229, with R187: YIELD in IDLE evaluates the gate once, and goes to ACT column 0; the gate's clock never goes back, and
LAST is 0 at reset. The field since is the model's own count (log 8). -/
def Obligations.YieldRunsTheReportersGate : Prop :=
  (∀ s : State, s.ph = .idle → s.last ≤ s.inp.now
    → (s.inp.now - s.last < 1000
        → exec .yield s = .next { s with
            ph := .act, col := 0, row := 0, dpos := 0, stl := 0, since := s.since + 1 })
      ∧ (1000 ≤ s.inp.now - s.last
        → exec .yield s = .next { s with
            ph := .act, col := 0, row := 0, dpos := 0, stl := 0, since := s.since + 1, last := s.inp.now,
            reports := report s :: s.reports }))
  ∧ (∀ s t : State, step s = .next t → s.inp.now ≤ t.inp.now)
  ∧ State.reset.last = 0

/-- U13, R63 (logs 9 and 10): a clock below LAST is refused in every phase; outside IDLE YIELD is refused by name where the
gate would have the Reporter read, and otherwise only passes one step. The field since is the model's own count (log 8). -/
def Obligations.YieldAwayFromIdle : Prop :=
  ∀ s : State, (s.inp.now < s.last → exec .yield s = .refused .clockWentBack)
    ∧ (s.ph ≠ .idle → s.last ≤ s.inp.now
      → (1000 ≤ s.inp.now - s.last → exec .yield s = .refused .reporterOutsideIdle)
        ∧ (s.inp.now - s.last < 1000 → exec .yield s = .next { s with since := s.since + 1 }))

/-- R230: the twelve lines of a report, rows outermost. -/
def Obligations.ReportHasTwelveLines : Prop :=
  ∀ s : State, (report s).length = 12
    ∧ (report s)[0]? = some .header
    ∧ (report s)[1]? = some (.columns [0, 1, 2, 3, 4, 5, 6, 7])
    ∧ (∀ r : Row, (report s)[2 + r.val]? = some (.values r
        [tblRead 0 r s, tblRead 1 r s, tblRead 2 r s, tblRead 3 r s, tblRead 4 r s, tblRead 5 r s, tblRead 6 r s, tblRead 7 r s]))
    ∧ (report s)[11]? = some .separator

/-- R63, R66: the Reporter's port answers any entry in IDLE, refuses outside IDLE and out of range. -/
def Obligations.ReporterReadsOnlyInIdle : Prop :=
  ∀ (c r : Nat) (s : State),
    (s.ph = .idle → ∀ (hc : c < 8) (hr : r < 9), reporterRead c r s = .ok (tblRead ⟨c, hc⟩ ⟨r, hr⟩ s))
    ∧ (s.ph = .idle → 8 ≤ c ∨ 9 ≤ r → reporterRead c r s = .error .reporterOutOfRange)
    ∧ (s.ph ≠ .idle → reporterRead c r s = .error .reporterOutsideIdle)

/-- Log 7 (the model's choice; R97 names no such execution): an operation executed away from its place completes and leaves the
position; TICK away from its place only passes one step. -/
def Obligations.OperationsAwayFromTheirPlaceLeaveThePosition : Prop :=
  (∀ (e : PinEvent) (s : State), (∀ p, framePattern s = some p → (frameEvents p)[s.dpos.val]? ≠ some e)
    → ∃ t, exec (pinInstr e) s = .next t ∧ SamePosition s t)
  ∧ (∀ (c : Col) (s : State), ¬(s.ph = .act ∧ s.col = c)
    → (∃ t, exec (actInstr c) s = .next t ∧ SamePosition s t) ∧ ∃ t, exec (.actC c) s = .next t ∧ SamePosition s t)
  ∧ (∀ s : State, s.ph ≠ .dea
    → (∃ t, exec .clr s = .next t ∧ SamePosition s t) ∧ ∃ t, exec .dea s = .next t ∧ SamePosition s t)
  ∧ (∀ (c : Col) (s : State), ¬(s.ph = .stl ∧ s.col = c) → exec (.tick c) s = .next { s with since := s.since + 1 })
  ∧ ∀ (c : Col) (r : Row) (s : State), ¬(s.ph = .smp ∧ s.col = c ∧ s.row = r)
    → ∃ t, exec (.smp c r) s = .next t ∧ SamePosition s t

/-! ## The table -/

/-- R68: writing the same value twice equals writing it once; a write is read back and leaves every other entry. -/
def Obligations.TableWriteIsIdempotentAndLocal : Prop :=
  ∀ (c : Col) (r : Row) (v : Bool) (s : State), wr c r v (wr c r v s) = wr c r v s
    ∧ tblRead c r (wr c r v s) = v
    ∧ (∀ c' r', ¬(c' = c ∧ r' = r) → tblRead c' r' (wr c r v s) = tblRead c' r' s)
    ∧ (s.snap.wf → (wr c r v s).snap.wf)

/-- R65: the packed views. -/
def Obligations.PackedViewsHoldTheEntries : Prop :=
  ∀ (c : Col) (r : Row) (s : State), (columnWord c s).getLsbD r.val = tblRead c r s
    ∧ (tableWord s).getLsbD (9 * c.val + r.val) = tblRead c r s

/-- R211: nothing but an SMP step writes SNAP, and reset leaves all 72 entries 0. -/
def Obligations.OnlySampleWritesTheTable : Prop :=
  (∀ s t : State, step s = .next t → s.ph ≠ .smp → t.snap = s.snap)
  ∧ (∀ s t : State, step s = .next t → ∀ c r, tblRead c r t ≠ tblRead c r s → s.ph = .smp ∧ c = s.col ∧ r = s.row)
  ∧ ∀ c r, tblRead c r State.reset = false

/-! ## Steps -/

/-- R36, R96, R181: a step is the operation its sequencer word encodes, and adds the event, the next inputs and the count (the
model's own fields, logs 2 and 13). -/
def Obligations.StepRunsTheDecodedOperation : Prop :=
  ∀ (s : State) (i : Instr), decode (.seq (seqWord s)) = .ok i
    → step s = (match exec i s with
      | .next u => .next { u with
          trace := eventOf s :: u.trace, tick := s.tick + 1,
          inp := {
            keys := Config.keysAt (s.tick + 1), now := u.inp.now + Config.elapsed (s.tick + 1),
            draw := Config.drawAt (s.tick + 1) } }
      | .fault f => .fault f
      | .refused r => .refused r)

/-- R95, R121, R181: at L0 in a driver phase the step is the pin event whose label stands at DPOS. -/
def Obligations.StepRunsThePinEvent : Prop :=
  ∀ (s : State) (p : Byte) (e : PinEvent), s.level = .l0 → s.row = 0
    → (s.ph = .act ∧ p = 1#8 <<< s.col.val) ∨ (s.ph = .dea ∧ s.col = 0 ∧ p = 0#8)
    → (frameEvents p)[s.dpos.val]? = some e
    → decode (.pe (peLabel e)) = .ok (pinInstr e) ∧ step s = finish s (exec (pinInstr e) s)

/-- R92, R127, R128, R181: at L1 in a driver phase the step is the frame of the phase. -/
def Obligations.StepRunsTheFrame : Prop :=
  ∀ s : State, s.level = .l1 → s.row = 0
    → (s.ph = .act → decode (.f8 (1#8 <<< s.col.val)) = .ok (actInstr s.col)
        ∧ step s = finish s (exec (actInstr s.col) s))
      ∧ (s.ph = .dea → s.col = 0 → decode (.f8 0#8) = .ok .clr ∧ step s = finish s (exec .clr s))

/-- R261: the state after reset, and its first step's event; SER, LAT, SH and Q are left as the draws they are. -/
def Obligations.ResetIsTheStartOfAct0 : Prop :=
  (∀ c r, tblRead c r State.reset = false) ∧ State.reset.ph = .act ∧ State.reset.col = 0 ∧ State.reset.row = 0
    ∧ State.reset.dpos = 0 ∧ State.reset.stl = 0 ∧ State.reset.sck = false ∧ State.reset.last = 0
    ∧ eventOf State.reset = .pin ⟨.lat, false⟩
    ∧ step State.reset = finish State.reset (exec .lat0 State.reset)

/-- R42 at reset; DriveInv and TableIsTrace too. -/
def Obligations.ResetMeetsTheInvariants : Prop :=
  Inv State.reset ∧ DriveInv State.reset ∧ TableIsTrace State.reset

/-- R42 (the spec's own derivation): every step keeps the invariants of the state. -/
def Obligations.StepKeepsTheStateInvariants : Prop :=
  ∀ s t : State, Inv s → step s = .next t → Inv t

/-- R189 (the spec's own derivation), R182, R185, R186: every step keeps what the column lines and the half-sent frame hold. -/
def Obligations.StepKeepsTheColumnLines : Prop :=
  ∀ s t : State, Inv s → DriveInv s → step s = .next t → DriveInv t

/-- R21: every step keeps each entry equal to the newest sample of it in the trace (the model's own field, log 13). -/
def Obligations.StepKeepsTheTableEqualToTheLastSamples : Prop :=
  ∀ s t : State, TableIsTrace s → step s = .next t → TableIsTrace t

/-- R181, R193, R220: in every state that meets the invariants exactly one row applies: the step answers a next state. -/
def Obligations.ReachableStatesAlwaysStep : Prop :=
  ∀ s : State, Inv s → ∃ t, step s = .next t

/-- R190 (the spec's own derivation): at every sample Q is CPAT[COL] alone and the delay has passed since the
commit, and on an isolated matrix with an unstuck line the entry is the key's contact. -/
def Obligations.SampleSeesItsOwnColumn : Prop :=
  ∀ s : State, Inv s → DriveInv s → s.ph = .smp
    → (∀ c : Col, s.q.getLsbD c.val = decide (c = s.col)) ∧ s.par.settleTicks ≤ s.since
      ∧ (s.par.matrixKind = .isolated → s.par.stuck.get s.row = .none
        → ∃ t, step s = .next t ∧ tblRead s.col s.row t = (s.inp.keys.get s.col).get s.row)

/-- R189 (the spec's own derivation), R131, R274: a step leaves Q alone or replaces it by a byte with at most one bit set. -/
def Obligations.CommittedBytesHaveAtMostOneBit : Prop :=
  ∀ s t : State, Inv s → DriveInv s → step s = .next t → t.q = s.q ∨ t.q = 0#8 ∨ ∃ c : Col, t.q = 1#8 <<< c.val

/-- R43: each element of R20 has one writer, by phase; PH, which the scanner writes in every phase, goes round in the order of
T1 to T10 and only there. -/
def Obligations.EachElementHasOneWriter : Prop :=
  ∀ s t : State, step s = .next t
    → (s.ph ≠ .smp → t.snap = s.snap ∧ t.row = s.row)
      ∧ (s.ph ≠ .smp → s.ph ≠ .idle → t.col = s.col)
      ∧ (s.ph ≠ .act → s.ph ≠ .dea → s.ph ≠ .idle → t.dpos = s.dpos)
      ∧ (s.ph ≠ .act → s.ph ≠ .stl → s.ph ≠ .idle → t.stl = s.stl)
      ∧ (t.ph = s.ph ∨ (s.ph, t.ph) ∈ [(.act, .stl), (.stl, .smp), (.smp, .act), (.smp, .dea), (.dea, .idle), (.idle, .act)])
      ∧ (s.ph ≠ .idle → t.last = s.last ∧ t.reports = s.reports)
      ∧ (s.ph ≠ .act → s.ph ≠ .dea → t.ser = s.ser ∧ t.sck = s.sck ∧ t.lat = s.lat ∧ t.sh = s.sh ∧ t.q = s.q)
      ∧ (s.level = .l0 → s.dpos.val ≠ 25 → t.q = s.q)
      ∧ t.par = s.par ∧ t.level = s.level

/-- R198 (the spec's own derivation): the scanner never reads SNAP. With any other table the step does the same: it writes the
same value at the same address of that table in SMP and leaves it elsewhere, and emits as many reports (whose text the Reporter
takes from the table). -/
def Obligations.ScannerNeverReadsTheTable : Prop :=
  ∀ (s t : State) (m : Memory), step s = .next t
    → ∃ rs, rs.length = t.reports.length
      ∧ step { s with snap := m } = .next { t with
          snap := if s.ph = .smp then m.write (9 * s.col.val + s.row.val) (keyByte (pinRead s.row s)) else m,
          reports := rs }

/-- R78: a sample sees K as it is at that step; K has no effect outside a sample, and NOW none outside IDLE (but on NOW
itself). -/
def Obligations.InputsAreReadOnlyInTheirPhase : Prop :=
  (∀ (s : State) (k : Keys), s.ph ≠ .smp → step { s with inp := { s.inp with keys := k } } = step s)
  ∧ (∀ (s : State) (k : Keys), s.ph = .smp → s.par.settleTicks ≤ s.since → s.par.stuck.get s.row = .none
      → s.par.matrixKind = .isolated
      → s.q = 1#8 <<< s.col.val
      → ∃ t, step { s with inp := { s.inp with keys := k } } = .next t ∧ tblRead s.col s.row t = (k.get s.col).get s.row)
  ∧ ∀ (s t : State) (n : Nat), s.ph ≠ .idle → step s = .next t
    → ∃ n', step { s with inp := { s.inp with now := n } } = .next { t with inp := { t.inp with now := n' } }

/-! ## Runs -/

/-- R129 (the spec's own derivation), R12, R181: from the start of a frame, 26 steps at L0 and one step at L1 agree on every element of R20. -/
def Obligations.TwentySixPinEventsAreOneFrame : Prop :=
  ∀ s : State, Inv s → s.level = .l0 → s.dpos = 0 → s.ph = .act ∨ s.ph = .dea
    → ∃ t u, stepN 26 s = .next t ∧ step { s with level := .l1 } = .next u ∧ SameCore t u

/-- R183: from any point of a Settle, exactly STL more steps are spent in it, and it leaves the lines, the device, the table
and the column as they were. The field since is the model's own count (log 8). -/
def Obligations.SettleTakesExactlyItsTicks : Prop :=
  ∀ s : State, Inv s → s.level = .l0 → s.ph = .stl
    → (∀ n, n < s.stl → ∃ t, stepN n s = .next t ∧ t.ph = .stl ∧ t.stl = s.stl - n)
      ∧ ∃ t, stepN s.stl s = .next t ∧ t.ph = .smp ∧ t.row = 0 ∧ t.stl = 0 ∧ t.col = s.col ∧ t.snap = s.snap
        ∧ t.ser = s.ser ∧ t.sck = s.sck ∧ t.lat = s.lat ∧ t.sh = s.sh ∧ t.q = s.q ∧ t.last = s.last
        ∧ t.since = s.since + s.stl

/-- R262 (the spec's own derivation): the unspecified reset levels affect nothing from the first commit on: runs of 26 steps from states that differ in SER,
LAT, SH and Q only end in one and the same state, with Q = SH = CPAT[COL]. -/
def Obligations.FirstFrameForgetsTheResetDraws : Prop :=
  ∀ (s : State) (a b : Bool) (x y : Byte), Inv s → s.level = .l0 → s.ph = .act → s.dpos = 0
    → ∃ t, stepN 26 s = .next t ∧ stepN 26 { s with ser := a, lat := b, sh := x, q := y } = .next t
      ∧ t.q = 1#8 <<< s.col.val ∧ t.sh = 1#8 <<< s.col.val ∧ t.sck = false ∧ t.lat = true

/-- R285 (the spec's own derivation) at L0: the exact step counts of a frame, a column, a sweep and a loop iteration, S = SETTLE_TICKS; no IDLE comes
earlier. -/
def Obligations.StepCountsAtL0 : Prop :=
  ∀ s : State, Inv s → s.level = .l0 → s.ph = .act → s.dpos = 0
    → (∃ t, stepN 26 s = .next t ∧ t.ph = .stl ∧ t.col = s.col ∧ t.stl = s.par.settleTicks)
      ∧ (∃ t, stepN (35 + s.par.settleTicks) s = .next t ∧ t.dpos = 0
        ∧ (s.col.val < 7 → t.ph = .act ∧ t.col.val = s.col.val + 1) ∧ (s.col.val = 7 → t.ph = .dea ∧ t.col = 0))
      ∧ (s.col = 0
        → (∃ t, stepN (306 + 8 * s.par.settleTicks) s = .next t ∧ t.ph = .idle ∧ t.q = 0#8)
          ∧ (∀ n t, n < 306 + 8 * s.par.settleTicks → stepN n s = .next t → t.ph ≠ .idle)
          ∧ ∃ t, stepN (307 + 8 * s.par.settleTicks) s = .next t ∧ t.ph = .act ∧ t.col = 0 ∧ t.dpos = 0)

/-- R285 (the spec's own derivation) at L1: 11 steps a column, 89 a sweep, 90 a loop iteration; no IDLE comes earlier. -/
def Obligations.StepCountsAtL1 : Prop :=
  ∀ s : State, Inv s → s.level = .l1 → s.ph = .act
    → (∃ t, stepN 11 s = .next t
        ∧ (s.col.val < 7 → t.ph = .act ∧ t.col.val = s.col.val + 1) ∧ (s.col.val = 7 → t.ph = .dea ∧ t.col = 0))
      ∧ (s.col = 0
        → (∃ t, stepN 89 s = .next t ∧ t.ph = .idle ∧ t.q = 0#8)
          ∧ (∀ n t, n < 89 → stepN n s = .next t → t.ph ≠ .idle)
          ∧ ∃ t, stepN 90 s = .next t ∧ t.ph = .act ∧ t.col = 0)

/-- R192, R191 (the spec's own derivations): a sweep from any table leaves each entry at the level its row line had at the entry's own step t(c, r), under
column c alone: the stuck level, K at that step on an isolated matrix, or what R165 gives. -/
def Obligations.SweepSamplesEveryKeyAtItsStep : Prop :=
  ∀ s : State, Inv s → s.level = .l0 → s.ph = .act → s.col = 0 → s.dpos = 0
    → ∃ t, stepN (306 + 8 * s.par.settleTicks) s = .next t ∧ t.ph = .idle
      ∧ ∀ (c : Col) (r : Row), tblRead c r t = pinRead r { s with
          ph := .smp, q := 1#8 <<< c.val, since := s.par.settleTicks,
          inp := {
            keys := Config.keysAt (s.tick + c.val * (35 + s.par.settleTicks) + 26 + s.par.settleTicks + r.val),
            now := 0,
            draw := Config.drawAt (s.tick + c.val * (35 + s.par.settleTicks) + 26 + s.par.settleTicks + r.val) } }

/-- R188, R191 (the spec's own derivations), R213: the events of a sweep, in order: per column the 26 pin events of its frame, S ticks and nine samples,
the rows ascending; then the clear frame. Only the sampled values depend on anything, and they are the table's at the end. -/
def Obligations.SweepTraceIsFixed : Prop :=
  ∀ s : State, Inv s → s.level = .l0 → s.ph = .act → s.col = 0 → s.dpos = 0
    → ∃ t, stepN (306 + 8 * s.par.settleTicks) s = .next t ∧ t.ph = .idle
      ∧ t.trace = (sweepEvents s.par.settleTicks fun c r => tblRead c r t).reverse ++ s.trace

/-! ## Reset and boot -/

/-- R260, R264: a reset at any time discards the run: nothing of the state survives; what R261 fixes is fixed again. The
parameters, the level and the count stay (the model's choice, logs 21 and 28). -/
def Obligations.RestartDiscardsTheRun : Prop :=
  ∀ s : State, (∀ c r, tblRead c r (restart s) = false)
    ∧ (restart s).ph = .act ∧ (restart s).col = 0 ∧ (restart s).row = 0 ∧ (restart s).dpos = 0 ∧ (restart s).stl = 0
    ∧ (restart s).sck = false ∧ (restart s).last = 0
    ∧ (∀ t : State, t.tick = s.tick → t.par = s.par → t.level = s.level → restart t = restart s)
    ∧ (Inv s → Inv (restart s) ∧ DriveInv (restart s) ∧ TableIsTrace (restart s))

/-- R266, U7: a launch from the reset state goes on, and one with SCK at 1 is refused. That a launch is a function of the model,
and that it also refuses a table not zeroed (R266 (d)) and LAST not 0 (R266 (f), the Reporter's), is the model's choice
(log 21). -/
def Obligations.LaunchChecksTheBootRequirements : Prop :=
  launch State.reset = .next State.reset
    ∧ ∀ s : State, s.sck = true ∨ s.snap ≠ [] ∨ s.last ≠ 0 → launch s = .refused .bootRequirement
end

