-- ==== Sys2Proof/Laws/State.lean ====
section
/-! SUPPORT. The small lemmas of the state: for each named operation, the fields it leaves as they were, and the plain values it
writes. Later proofs rewrite with these and unfold no record update. -/

namespace Sys2Proof.Machine

/-! ### Table write (R62) -/

@[simp] theorem tblWrite_ph (c : Col) (r : Row) (v : Bool) (s : State) : (tblWrite c r v s).ph = s.ph := rfl
@[simp] theorem tblWrite_col (c : Col) (r : Row) (v : Bool) (s : State) : (tblWrite c r v s).col = s.col := rfl
@[simp] theorem tblWrite_row (c : Col) (r : Row) (v : Bool) (s : State) : (tblWrite c r v s).row = s.row := rfl
@[simp] theorem tblWrite_dpos (c : Col) (r : Row) (v : Bool) (s : State) : (tblWrite c r v s).dpos = s.dpos := rfl
@[simp] theorem tblWrite_stl (c : Col) (r : Row) (v : Bool) (s : State) : (tblWrite c r v s).stl = s.stl := rfl
@[simp] theorem tblWrite_ser (c : Col) (r : Row) (v : Bool) (s : State) : (tblWrite c r v s).ser = s.ser := rfl
@[simp] theorem tblWrite_sck (c : Col) (r : Row) (v : Bool) (s : State) : (tblWrite c r v s).sck = s.sck := rfl
@[simp] theorem tblWrite_lat (c : Col) (r : Row) (v : Bool) (s : State) : (tblWrite c r v s).lat = s.lat := rfl
@[simp] theorem tblWrite_sh (c : Col) (r : Row) (v : Bool) (s : State) : (tblWrite c r v s).sh = s.sh := rfl
@[simp] theorem tblWrite_q (c : Col) (r : Row) (v : Bool) (s : State) : (tblWrite c r v s).q = s.q := rfl
@[simp] theorem tblWrite_last (c : Col) (r : Row) (v : Bool) (s : State) : (tblWrite c r v s).last = s.last := rfl
@[simp] theorem tblWrite_par (c : Col) (r : Row) (v : Bool) (s : State) : (tblWrite c r v s).par = s.par := rfl
@[simp] theorem tblWrite_inp (c : Col) (r : Row) (v : Bool) (s : State) : (tblWrite c r v s).inp = s.inp := rfl
@[simp] theorem tblWrite_tick (c : Col) (r : Row) (v : Bool) (s : State) : (tblWrite c r v s).tick = s.tick := rfl
@[simp] theorem tblWrite_since (c : Col) (r : Row) (v : Bool) (s : State) : (tblWrite c r v s).since = s.since := rfl
@[simp] theorem tblWrite_level (c : Col) (r : Row) (v : Bool) (s : State) : (tblWrite c r v s).level = s.level := rfl
@[simp] theorem tblWrite_trace (c : Col) (r : Row) (v : Bool) (s : State) : (tblWrite c r v s).trace = s.trace := rfl
@[simp] theorem tblWrite_reports (c : Col) (r : Row) (v : Bool) (s : State) : (tblWrite c r v s).reports = s.reports := rfl
@[simp] theorem tblWrite_snap (c : Col) (r : Row) (v : Bool) (s : State) : (tblWrite c r v s).snap = s.snap.write (tblAddr c r) (keyByte v) := rfl

/-! ### Table writer WR (R210) -/

@[simp] theorem wr_ph (c : Col) (r : Row) (v : Bool) (s : State) : (wr c r v s).ph = s.ph := rfl
@[simp] theorem wr_col (c : Col) (r : Row) (v : Bool) (s : State) : (wr c r v s).col = s.col := rfl
@[simp] theorem wr_row (c : Col) (r : Row) (v : Bool) (s : State) : (wr c r v s).row = s.row := rfl
@[simp] theorem wr_dpos (c : Col) (r : Row) (v : Bool) (s : State) : (wr c r v s).dpos = s.dpos := rfl
@[simp] theorem wr_stl (c : Col) (r : Row) (v : Bool) (s : State) : (wr c r v s).stl = s.stl := rfl
@[simp] theorem wr_ser (c : Col) (r : Row) (v : Bool) (s : State) : (wr c r v s).ser = s.ser := rfl
@[simp] theorem wr_sck (c : Col) (r : Row) (v : Bool) (s : State) : (wr c r v s).sck = s.sck := rfl
@[simp] theorem wr_lat (c : Col) (r : Row) (v : Bool) (s : State) : (wr c r v s).lat = s.lat := rfl
@[simp] theorem wr_sh (c : Col) (r : Row) (v : Bool) (s : State) : (wr c r v s).sh = s.sh := rfl
@[simp] theorem wr_q (c : Col) (r : Row) (v : Bool) (s : State) : (wr c r v s).q = s.q := rfl
@[simp] theorem wr_last (c : Col) (r : Row) (v : Bool) (s : State) : (wr c r v s).last = s.last := rfl
@[simp] theorem wr_par (c : Col) (r : Row) (v : Bool) (s : State) : (wr c r v s).par = s.par := rfl
@[simp] theorem wr_inp (c : Col) (r : Row) (v : Bool) (s : State) : (wr c r v s).inp = s.inp := rfl
@[simp] theorem wr_tick (c : Col) (r : Row) (v : Bool) (s : State) : (wr c r v s).tick = s.tick := rfl
@[simp] theorem wr_since (c : Col) (r : Row) (v : Bool) (s : State) : (wr c r v s).since = s.since := rfl
@[simp] theorem wr_level (c : Col) (r : Row) (v : Bool) (s : State) : (wr c r v s).level = s.level := rfl
@[simp] theorem wr_trace (c : Col) (r : Row) (v : Bool) (s : State) : (wr c r v s).trace = s.trace := rfl
@[simp] theorem wr_reports (c : Col) (r : Row) (v : Bool) (s : State) : (wr c r v s).reports = s.reports := rfl
@[simp] theorem wr_snap (c : Col) (r : Row) (v : Bool) (s : State) : (wr c r v s).snap = s.snap.write (tblAddr c r) (keyByte v) := rfl

/-! ### Pin write (R11, R134) -/

@[simp] theorem pinWrite_snap (e : PinEvent) (s : State) : (pinWrite e s).snap = s.snap := by unfold pinWrite; split <;> rfl
@[simp] theorem pinWrite_ph (e : PinEvent) (s : State) : (pinWrite e s).ph = s.ph := by unfold pinWrite; split <;> rfl
@[simp] theorem pinWrite_col (e : PinEvent) (s : State) : (pinWrite e s).col = s.col := by unfold pinWrite; split <;> rfl
@[simp] theorem pinWrite_row (e : PinEvent) (s : State) : (pinWrite e s).row = s.row := by unfold pinWrite; split <;> rfl
@[simp] theorem pinWrite_dpos (e : PinEvent) (s : State) : (pinWrite e s).dpos = s.dpos := by unfold pinWrite; split <;> rfl
@[simp] theorem pinWrite_stl (e : PinEvent) (s : State) : (pinWrite e s).stl = s.stl := by unfold pinWrite; split <;> rfl
@[simp] theorem pinWrite_last (e : PinEvent) (s : State) : (pinWrite e s).last = s.last := by unfold pinWrite; split <;> rfl
@[simp] theorem pinWrite_par (e : PinEvent) (s : State) : (pinWrite e s).par = s.par := by unfold pinWrite; split <;> rfl
@[simp] theorem pinWrite_inp (e : PinEvent) (s : State) : (pinWrite e s).inp = s.inp := by unfold pinWrite; split <;> rfl
@[simp] theorem pinWrite_tick (e : PinEvent) (s : State) : (pinWrite e s).tick = s.tick := by unfold pinWrite; split <;> rfl
@[simp] theorem pinWrite_level (e : PinEvent) (s : State) : (pinWrite e s).level = s.level := by unfold pinWrite; split <;> rfl
@[simp] theorem pinWrite_trace (e : PinEvent) (s : State) : (pinWrite e s).trace = s.trace := by unfold pinWrite; split <;> rfl
@[simp] theorem pinWrite_reports (e : PinEvent) (s : State) : (pinWrite e s).reports = s.reports := by unfold pinWrite; split <;> rfl

/-! ### A list of pin writes -/

@[simp] theorem pinWrites_snap (es : List PinEvent) (s : State) : (es.foldl (fun t e => pinWrite e t) s).snap = s.snap := by
  induction es generalizing s with
  | nil => rfl
  | cons e es ih => simp [ih]
@[simp] theorem pinWrites_ph (es : List PinEvent) (s : State) : (es.foldl (fun t e => pinWrite e t) s).ph = s.ph := by
  induction es generalizing s with
  | nil => rfl
  | cons e es ih => simp [ih]
@[simp] theorem pinWrites_col (es : List PinEvent) (s : State) : (es.foldl (fun t e => pinWrite e t) s).col = s.col := by
  induction es generalizing s with
  | nil => rfl
  | cons e es ih => simp [ih]
@[simp] theorem pinWrites_row (es : List PinEvent) (s : State) : (es.foldl (fun t e => pinWrite e t) s).row = s.row := by
  induction es generalizing s with
  | nil => rfl
  | cons e es ih => simp [ih]
@[simp] theorem pinWrites_dpos (es : List PinEvent) (s : State) : (es.foldl (fun t e => pinWrite e t) s).dpos = s.dpos := by
  induction es generalizing s with
  | nil => rfl
  | cons e es ih => simp [ih]
@[simp] theorem pinWrites_stl (es : List PinEvent) (s : State) : (es.foldl (fun t e => pinWrite e t) s).stl = s.stl := by
  induction es generalizing s with
  | nil => rfl
  | cons e es ih => simp [ih]
@[simp] theorem pinWrites_last (es : List PinEvent) (s : State) : (es.foldl (fun t e => pinWrite e t) s).last = s.last := by
  induction es generalizing s with
  | nil => rfl
  | cons e es ih => simp [ih]
@[simp] theorem pinWrites_par (es : List PinEvent) (s : State) : (es.foldl (fun t e => pinWrite e t) s).par = s.par := by
  induction es generalizing s with
  | nil => rfl
  | cons e es ih => simp [ih]
@[simp] theorem pinWrites_inp (es : List PinEvent) (s : State) : (es.foldl (fun t e => pinWrite e t) s).inp = s.inp := by
  induction es generalizing s with
  | nil => rfl
  | cons e es ih => simp [ih]
@[simp] theorem pinWrites_tick (es : List PinEvent) (s : State) : (es.foldl (fun t e => pinWrite e t) s).tick = s.tick := by
  induction es generalizing s with
  | nil => rfl
  | cons e es ih => simp [ih]
@[simp] theorem pinWrites_level (es : List PinEvent) (s : State) : (es.foldl (fun t e => pinWrite e t) s).level = s.level := by
  induction es generalizing s with
  | nil => rfl
  | cons e es ih => simp [ih]
@[simp] theorem pinWrites_trace (es : List PinEvent) (s : State) : (es.foldl (fun t e => pinWrite e t) s).trace = s.trace := by
  induction es generalizing s with
  | nil => rfl
  | cons e es ih => simp [ih]
@[simp] theorem pinWrites_reports (es : List PinEvent) (s : State) : (es.foldl (fun t e => pinWrite e t) s).reports = s.reports := by
  induction es generalizing s with
  | nil => rfl
  | cons e es ih => simp [ih]

/-! ### TRANSMIT (R121) -/

@[simp] theorem transmit_snap (p : Byte) (s : State) : (transmit p s).snap = s.snap := by simp [transmit]
@[simp] theorem transmit_ph (p : Byte) (s : State) : (transmit p s).ph = s.ph := by simp [transmit]
@[simp] theorem transmit_col (p : Byte) (s : State) : (transmit p s).col = s.col := by simp [transmit]
@[simp] theorem transmit_row (p : Byte) (s : State) : (transmit p s).row = s.row := by simp [transmit]
@[simp] theorem transmit_dpos (p : Byte) (s : State) : (transmit p s).dpos = s.dpos := by simp [transmit]
@[simp] theorem transmit_stl (p : Byte) (s : State) : (transmit p s).stl = s.stl := by simp [transmit]
@[simp] theorem transmit_last (p : Byte) (s : State) : (transmit p s).last = s.last := by simp [transmit]
@[simp] theorem transmit_par (p : Byte) (s : State) : (transmit p s).par = s.par := by simp [transmit]
@[simp] theorem transmit_inp (p : Byte) (s : State) : (transmit p s).inp = s.inp := by simp [transmit]
@[simp] theorem transmit_tick (p : Byte) (s : State) : (transmit p s).tick = s.tick := by simp [transmit]
@[simp] theorem transmit_level (p : Byte) (s : State) : (transmit p s).level = s.level := by simp [transmit]
@[simp] theorem transmit_trace (p : Byte) (s : State) : (transmit p s).trace = s.trace := by simp [transmit]
@[simp] theorem transmit_reports (p : Byte) (s : State) : (transmit p s).reports = s.reports := by simp [transmit]

/-! ### SEQ.START (R151) -/

@[simp] theorem seqStart_snap (s : State) : (seqStart s).snap = s.snap := rfl
@[simp] theorem seqStart_ph (s : State) : (seqStart s).ph = s.ph := rfl
@[simp] theorem seqStart_row (s : State) : (seqStart s).row = s.row := rfl
@[simp] theorem seqStart_dpos (s : State) : (seqStart s).dpos = s.dpos := rfl
@[simp] theorem seqStart_stl (s : State) : (seqStart s).stl = s.stl := rfl
@[simp] theorem seqStart_ser (s : State) : (seqStart s).ser = s.ser := rfl
@[simp] theorem seqStart_sck (s : State) : (seqStart s).sck = s.sck := rfl
@[simp] theorem seqStart_lat (s : State) : (seqStart s).lat = s.lat := rfl
@[simp] theorem seqStart_sh (s : State) : (seqStart s).sh = s.sh := rfl
@[simp] theorem seqStart_q (s : State) : (seqStart s).q = s.q := rfl
@[simp] theorem seqStart_last (s : State) : (seqStart s).last = s.last := rfl
@[simp] theorem seqStart_par (s : State) : (seqStart s).par = s.par := rfl
@[simp] theorem seqStart_inp (s : State) : (seqStart s).inp = s.inp := rfl
@[simp] theorem seqStart_tick (s : State) : (seqStart s).tick = s.tick := rfl
@[simp] theorem seqStart_since (s : State) : (seqStart s).since = s.since := rfl
@[simp] theorem seqStart_level (s : State) : (seqStart s).level = s.level := rfl
@[simp] theorem seqStart_trace (s : State) : (seqStart s).trace = s.trace := rfl
@[simp] theorem seqStart_reports (s : State) : (seqStart s).reports = s.reports := rfl
@[simp] theorem seqStart_col (s : State) : (seqStart s).col = 0 := rfl

/-! ### SEQ.NEXT (R152) -/

@[simp] theorem seqNext_snap (s : State) : (seqNext s).snap = s.snap := rfl
@[simp] theorem seqNext_ph (s : State) : (seqNext s).ph = s.ph := rfl
@[simp] theorem seqNext_row (s : State) : (seqNext s).row = s.row := rfl
@[simp] theorem seqNext_dpos (s : State) : (seqNext s).dpos = s.dpos := rfl
@[simp] theorem seqNext_stl (s : State) : (seqNext s).stl = s.stl := rfl
@[simp] theorem seqNext_ser (s : State) : (seqNext s).ser = s.ser := rfl
@[simp] theorem seqNext_sck (s : State) : (seqNext s).sck = s.sck := rfl
@[simp] theorem seqNext_lat (s : State) : (seqNext s).lat = s.lat := rfl
@[simp] theorem seqNext_sh (s : State) : (seqNext s).sh = s.sh := rfl
@[simp] theorem seqNext_q (s : State) : (seqNext s).q = s.q := rfl
@[simp] theorem seqNext_last (s : State) : (seqNext s).last = s.last := rfl
@[simp] theorem seqNext_par (s : State) : (seqNext s).par = s.par := rfl
@[simp] theorem seqNext_inp (s : State) : (seqNext s).inp = s.inp := rfl
@[simp] theorem seqNext_tick (s : State) : (seqNext s).tick = s.tick := rfl
@[simp] theorem seqNext_since (s : State) : (seqNext s).since = s.since := rfl
@[simp] theorem seqNext_level (s : State) : (seqNext s).level = s.level := rfl
@[simp] theorem seqNext_trace (s : State) : (seqNext s).trace = s.trace := rfl
@[simp] theorem seqNext_reports (s : State) : (seqNext s).reports = s.reports := rfl
@[simp] theorem seqNext_col (s : State) : (seqNext s).col = s.col + 1 := rfl

/-! ### The end of a frame (T2, T9) -/

@[simp] theorem frameDone_snap (s : State) : (frameDone s).snap = s.snap := by unfold frameDone; split <;> rfl
@[simp] theorem frameDone_col (s : State) : (frameDone s).col = s.col := by unfold frameDone; split <;> rfl
@[simp] theorem frameDone_row (s : State) : (frameDone s).row = s.row := by unfold frameDone; split <;> rfl
@[simp] theorem frameDone_ser (s : State) : (frameDone s).ser = s.ser := by unfold frameDone; split <;> rfl
@[simp] theorem frameDone_sck (s : State) : (frameDone s).sck = s.sck := by unfold frameDone; split <;> rfl
@[simp] theorem frameDone_lat (s : State) : (frameDone s).lat = s.lat := by unfold frameDone; split <;> rfl
@[simp] theorem frameDone_sh (s : State) : (frameDone s).sh = s.sh := by unfold frameDone; split <;> rfl
@[simp] theorem frameDone_q (s : State) : (frameDone s).q = s.q := by unfold frameDone; split <;> rfl
@[simp] theorem frameDone_last (s : State) : (frameDone s).last = s.last := by unfold frameDone; split <;> rfl
@[simp] theorem frameDone_par (s : State) : (frameDone s).par = s.par := by unfold frameDone; split <;> rfl
@[simp] theorem frameDone_inp (s : State) : (frameDone s).inp = s.inp := by unfold frameDone; split <;> rfl
@[simp] theorem frameDone_tick (s : State) : (frameDone s).tick = s.tick := by unfold frameDone; split <;> rfl
@[simp] theorem frameDone_since (s : State) : (frameDone s).since = s.since := by unfold frameDone; split <;> rfl
@[simp] theorem frameDone_level (s : State) : (frameDone s).level = s.level := by unfold frameDone; split <;> rfl
@[simp] theorem frameDone_trace (s : State) : (frameDone s).trace = s.trace := by unfold frameDone; split <;> rfl
@[simp] theorem frameDone_reports (s : State) : (frameDone s).reports = s.reports := by unfold frameDone; split <;> rfl

/-! ### The position after a pin event (T1, T8) -/

@[simp] theorem frameAdvance_snap (s : State) : (frameAdvance s).snap = s.snap := by
  unfold frameAdvance; split
  · rfl
  · simp
@[simp] theorem frameAdvance_col (s : State) : (frameAdvance s).col = s.col := by
  unfold frameAdvance; split
  · rfl
  · simp
@[simp] theorem frameAdvance_row (s : State) : (frameAdvance s).row = s.row := by
  unfold frameAdvance; split
  · rfl
  · simp
@[simp] theorem frameAdvance_ser (s : State) : (frameAdvance s).ser = s.ser := by
  unfold frameAdvance; split
  · rfl
  · simp
@[simp] theorem frameAdvance_sck (s : State) : (frameAdvance s).sck = s.sck := by
  unfold frameAdvance; split
  · rfl
  · simp
@[simp] theorem frameAdvance_lat (s : State) : (frameAdvance s).lat = s.lat := by
  unfold frameAdvance; split
  · rfl
  · simp
@[simp] theorem frameAdvance_sh (s : State) : (frameAdvance s).sh = s.sh := by
  unfold frameAdvance; split
  · rfl
  · simp
@[simp] theorem frameAdvance_q (s : State) : (frameAdvance s).q = s.q := by
  unfold frameAdvance; split
  · rfl
  · simp
@[simp] theorem frameAdvance_last (s : State) : (frameAdvance s).last = s.last := by
  unfold frameAdvance; split
  · rfl
  · simp
@[simp] theorem frameAdvance_par (s : State) : (frameAdvance s).par = s.par := by
  unfold frameAdvance; split
  · rfl
  · simp
@[simp] theorem frameAdvance_inp (s : State) : (frameAdvance s).inp = s.inp := by
  unfold frameAdvance; split
  · rfl
  · simp
@[simp] theorem frameAdvance_tick (s : State) : (frameAdvance s).tick = s.tick := by
  unfold frameAdvance; split
  · rfl
  · simp
@[simp] theorem frameAdvance_since (s : State) : (frameAdvance s).since = s.since := by
  unfold frameAdvance; split
  · rfl
  · simp
@[simp] theorem frameAdvance_level (s : State) : (frameAdvance s).level = s.level := by
  unfold frameAdvance; split
  · rfl
  · simp
@[simp] theorem frameAdvance_trace (s : State) : (frameAdvance s).trace = s.trace := by
  unfold frameAdvance; split
  · rfl
  · simp
@[simp] theorem frameAdvance_reports (s : State) : (frameAdvance s).reports = s.reports := by
  unfold frameAdvance; split
  · rfl
  · simp

/-! ### A pin event in or out of its place -/

@[simp] theorem pinStep_snap (here : Bool) (e : PinEvent) (s : State) : (pinStep here e s).snap = s.snap := by
  unfold pinStep; split <;> simp
@[simp] theorem pinStep_col (here : Bool) (e : PinEvent) (s : State) : (pinStep here e s).col = s.col := by
  unfold pinStep; split <;> simp
@[simp] theorem pinStep_row (here : Bool) (e : PinEvent) (s : State) : (pinStep here e s).row = s.row := by
  unfold pinStep; split <;> simp
@[simp] theorem pinStep_last (here : Bool) (e : PinEvent) (s : State) : (pinStep here e s).last = s.last := by
  unfold pinStep; split <;> simp
@[simp] theorem pinStep_par (here : Bool) (e : PinEvent) (s : State) : (pinStep here e s).par = s.par := by
  unfold pinStep; split <;> simp
@[simp] theorem pinStep_inp (here : Bool) (e : PinEvent) (s : State) : (pinStep here e s).inp = s.inp := by
  unfold pinStep; split <;> simp
@[simp] theorem pinStep_tick (here : Bool) (e : PinEvent) (s : State) : (pinStep here e s).tick = s.tick := by
  unfold pinStep; split <;> simp
@[simp] theorem pinStep_level (here : Bool) (e : PinEvent) (s : State) : (pinStep here e s).level = s.level := by
  unfold pinStep; split <;> simp
@[simp] theorem pinStep_trace (here : Bool) (e : PinEvent) (s : State) : (pinStep here e s).trace = s.trace := by
  unfold pinStep; split <;> simp
@[simp] theorem pinStep_reports (here : Bool) (e : PinEvent) (s : State) : (pinStep here e s).reports = s.reports := by
  unfold pinStep; split <;> simp

/-! ### A pin event as an operation -/

@[simp] theorem pinOp_snap (e : PinEvent) (s : State) : (pinOp e s).snap = s.snap := by simp [pinOp]
@[simp] theorem pinOp_col (e : PinEvent) (s : State) : (pinOp e s).col = s.col := by simp [pinOp]
@[simp] theorem pinOp_row (e : PinEvent) (s : State) : (pinOp e s).row = s.row := by simp [pinOp]
@[simp] theorem pinOp_last (e : PinEvent) (s : State) : (pinOp e s).last = s.last := by simp [pinOp]
@[simp] theorem pinOp_par (e : PinEvent) (s : State) : (pinOp e s).par = s.par := by simp [pinOp]
@[simp] theorem pinOp_inp (e : PinEvent) (s : State) : (pinOp e s).inp = s.inp := by simp [pinOp]
@[simp] theorem pinOp_tick (e : PinEvent) (s : State) : (pinOp e s).tick = s.tick := by simp [pinOp]
@[simp] theorem pinOp_level (e : PinEvent) (s : State) : (pinOp e s).level = s.level := by simp [pinOp]
@[simp] theorem pinOp_trace (e : PinEvent) (s : State) : (pinOp e s).trace = s.trace := by simp [pinOp]
@[simp] theorem pinOp_reports (e : PinEvent) (s : State) : (pinOp e s).reports = s.reports := by simp [pinOp]

/-! ### A frame as an operation -/

@[simp] theorem frameOp_snap (p : Byte) (s : State) : (frameOp p s).snap = s.snap := by
  unfold frameOp; split <;> simp
@[simp] theorem frameOp_col (p : Byte) (s : State) : (frameOp p s).col = s.col := by
  unfold frameOp; split <;> simp
@[simp] theorem frameOp_row (p : Byte) (s : State) : (frameOp p s).row = s.row := by
  unfold frameOp; split <;> simp
@[simp] theorem frameOp_last (p : Byte) (s : State) : (frameOp p s).last = s.last := by
  unfold frameOp; split <;> simp
@[simp] theorem frameOp_par (p : Byte) (s : State) : (frameOp p s).par = s.par := by
  unfold frameOp; split <;> simp
@[simp] theorem frameOp_inp (p : Byte) (s : State) : (frameOp p s).inp = s.inp := by
  unfold frameOp; split <;> simp
@[simp] theorem frameOp_tick (p : Byte) (s : State) : (frameOp p s).tick = s.tick := by
  unfold frameOp; split <;> simp
@[simp] theorem frameOp_level (p : Byte) (s : State) : (frameOp p s).level = s.level := by
  unfold frameOp; split <;> simp
@[simp] theorem frameOp_trace (p : Byte) (s : State) : (frameOp p s).trace = s.trace := by
  unfold frameOp; split <;> simp
@[simp] theorem frameOp_reports (p : Byte) (s : State) : (frameOp p s).reports = s.reports := by
  unfold frameOp; split <;> simp

/-! ### A driver phase's step -/

@[simp] theorem driverPhase_snap (here : Bool) (p : Byte) (s : State) : (driverPhase here p s).snap = s.snap := by
  unfold driverPhase; split
  · simp
  · split <;> simp
@[simp] theorem driverPhase_col (here : Bool) (p : Byte) (s : State) : (driverPhase here p s).col = s.col := by
  unfold driverPhase; split
  · simp
  · split <;> simp
@[simp] theorem driverPhase_row (here : Bool) (p : Byte) (s : State) : (driverPhase here p s).row = s.row := by
  unfold driverPhase; split
  · simp
  · split <;> simp
@[simp] theorem driverPhase_last (here : Bool) (p : Byte) (s : State) : (driverPhase here p s).last = s.last := by
  unfold driverPhase; split
  · simp
  · split <;> simp
@[simp] theorem driverPhase_par (here : Bool) (p : Byte) (s : State) : (driverPhase here p s).par = s.par := by
  unfold driverPhase; split
  · simp
  · split <;> simp
@[simp] theorem driverPhase_inp (here : Bool) (p : Byte) (s : State) : (driverPhase here p s).inp = s.inp := by
  unfold driverPhase; split
  · simp
  · split <;> simp
@[simp] theorem driverPhase_tick (here : Bool) (p : Byte) (s : State) : (driverPhase here p s).tick = s.tick := by
  unfold driverPhase; split
  · simp
  · split <;> simp
@[simp] theorem driverPhase_level (here : Bool) (p : Byte) (s : State) : (driverPhase here p s).level = s.level := by
  unfold driverPhase; split
  · simp
  · split <;> simp
@[simp] theorem driverPhase_trace (here : Bool) (p : Byte) (s : State) : (driverPhase here p s).trace = s.trace := by
  unfold driverPhase; split
  · simp
  · split <;> simp
@[simp] theorem driverPhase_reports (here : Bool) (p : Byte) (s : State) : (driverPhase here p s).reports = s.reports := by
  unfold driverPhase; split
  · simp
  · split <;> simp

/-! ### One step that commits nothing (R162) -/

@[simp] theorem passed_snap (s : State) : (passed s).snap = s.snap := rfl
@[simp] theorem passed_ph (s : State) : (passed s).ph = s.ph := rfl
@[simp] theorem passed_col (s : State) : (passed s).col = s.col := rfl
@[simp] theorem passed_row (s : State) : (passed s).row = s.row := rfl
@[simp] theorem passed_dpos (s : State) : (passed s).dpos = s.dpos := rfl
@[simp] theorem passed_stl (s : State) : (passed s).stl = s.stl := rfl
@[simp] theorem passed_ser (s : State) : (passed s).ser = s.ser := rfl
@[simp] theorem passed_sck (s : State) : (passed s).sck = s.sck := rfl
@[simp] theorem passed_lat (s : State) : (passed s).lat = s.lat := rfl
@[simp] theorem passed_sh (s : State) : (passed s).sh = s.sh := rfl
@[simp] theorem passed_q (s : State) : (passed s).q = s.q := rfl
@[simp] theorem passed_last (s : State) : (passed s).last = s.last := rfl
@[simp] theorem passed_par (s : State) : (passed s).par = s.par := rfl
@[simp] theorem passed_inp (s : State) : (passed s).inp = s.inp := rfl
@[simp] theorem passed_tick (s : State) : (passed s).tick = s.tick := rfl
@[simp] theorem passed_level (s : State) : (passed s).level = s.level := rfl
@[simp] theorem passed_trace (s : State) : (passed s).trace = s.trace := rfl
@[simp] theorem passed_reports (s : State) : (passed s).reports = s.reports := rfl
@[simp] theorem passed_since (s : State) : (passed s).since = s.since + 1 := rfl

/-! ### The end of Settle (T4) -/

@[simp] theorem settleDone_snap (s : State) : (settleDone s).snap = s.snap := rfl
@[simp] theorem settleDone_col (s : State) : (settleDone s).col = s.col := rfl
@[simp] theorem settleDone_dpos (s : State) : (settleDone s).dpos = s.dpos := rfl
@[simp] theorem settleDone_ser (s : State) : (settleDone s).ser = s.ser := rfl
@[simp] theorem settleDone_sck (s : State) : (settleDone s).sck = s.sck := rfl
@[simp] theorem settleDone_lat (s : State) : (settleDone s).lat = s.lat := rfl
@[simp] theorem settleDone_sh (s : State) : (settleDone s).sh = s.sh := rfl
@[simp] theorem settleDone_q (s : State) : (settleDone s).q = s.q := rfl
@[simp] theorem settleDone_last (s : State) : (settleDone s).last = s.last := rfl
@[simp] theorem settleDone_par (s : State) : (settleDone s).par = s.par := rfl
@[simp] theorem settleDone_inp (s : State) : (settleDone s).inp = s.inp := rfl
@[simp] theorem settleDone_tick (s : State) : (settleDone s).tick = s.tick := rfl
@[simp] theorem settleDone_level (s : State) : (settleDone s).level = s.level := rfl
@[simp] theorem settleDone_trace (s : State) : (settleDone s).trace = s.trace := rfl
@[simp] theorem settleDone_reports (s : State) : (settleDone s).reports = s.reports := rfl
@[simp] theorem settleDone_stl (s : State) : (settleDone s).stl = 0 := rfl
@[simp] theorem settleDone_row (s : State) : (settleDone s).row = 0 := rfl
@[simp] theorem settleDone_ph (s : State) : (settleDone s).ph = .smp := rfl
@[simp] theorem settleDone_since (s : State) : (settleDone s).since = s.since + s.stl := rfl

/-! ### One tick (T3, T4) -/

@[simp] theorem settleTick_snap (s : State) : (settleTick s).snap = s.snap := by unfold settleTick; split <;> rfl
@[simp] theorem settleTick_col (s : State) : (settleTick s).col = s.col := by unfold settleTick; split <;> rfl
@[simp] theorem settleTick_dpos (s : State) : (settleTick s).dpos = s.dpos := by unfold settleTick; split <;> rfl
@[simp] theorem settleTick_ser (s : State) : (settleTick s).ser = s.ser := by unfold settleTick; split <;> rfl
@[simp] theorem settleTick_sck (s : State) : (settleTick s).sck = s.sck := by unfold settleTick; split <;> rfl
@[simp] theorem settleTick_lat (s : State) : (settleTick s).lat = s.lat := by unfold settleTick; split <;> rfl
@[simp] theorem settleTick_sh (s : State) : (settleTick s).sh = s.sh := by unfold settleTick; split <;> rfl
@[simp] theorem settleTick_q (s : State) : (settleTick s).q = s.q := by unfold settleTick; split <;> rfl
@[simp] theorem settleTick_last (s : State) : (settleTick s).last = s.last := by unfold settleTick; split <;> rfl
@[simp] theorem settleTick_par (s : State) : (settleTick s).par = s.par := by unfold settleTick; split <;> rfl
@[simp] theorem settleTick_inp (s : State) : (settleTick s).inp = s.inp := by unfold settleTick; split <;> rfl
@[simp] theorem settleTick_tick (s : State) : (settleTick s).tick = s.tick := by unfold settleTick; split <;> rfl
@[simp] theorem settleTick_level (s : State) : (settleTick s).level = s.level := by unfold settleTick; split <;> rfl
@[simp] theorem settleTick_trace (s : State) : (settleTick s).trace = s.trace := by unfold settleTick; split <;> rfl
@[simp] theorem settleTick_reports (s : State) : (settleTick s).reports = s.reports := by unfold settleTick; split <;> rfl

/-! ### The position after a sample (T5 to T7) -/

@[simp] theorem sampleAdvance_snap (s : State) : (sampleAdvance s).snap = s.snap := by
  unfold sampleAdvance; split
  · rfl
  · split <;> rfl
@[simp] theorem sampleAdvance_dpos (s : State) : (sampleAdvance s).dpos = s.dpos := by
  unfold sampleAdvance; split
  · rfl
  · split <;> rfl
@[simp] theorem sampleAdvance_stl (s : State) : (sampleAdvance s).stl = s.stl := by
  unfold sampleAdvance; split
  · rfl
  · split <;> rfl
@[simp] theorem sampleAdvance_ser (s : State) : (sampleAdvance s).ser = s.ser := by
  unfold sampleAdvance; split
  · rfl
  · split <;> rfl
@[simp] theorem sampleAdvance_sck (s : State) : (sampleAdvance s).sck = s.sck := by
  unfold sampleAdvance; split
  · rfl
  · split <;> rfl
@[simp] theorem sampleAdvance_lat (s : State) : (sampleAdvance s).lat = s.lat := by
  unfold sampleAdvance; split
  · rfl
  · split <;> rfl
@[simp] theorem sampleAdvance_sh (s : State) : (sampleAdvance s).sh = s.sh := by
  unfold sampleAdvance; split
  · rfl
  · split <;> rfl
@[simp] theorem sampleAdvance_q (s : State) : (sampleAdvance s).q = s.q := by
  unfold sampleAdvance; split
  · rfl
  · split <;> rfl
@[simp] theorem sampleAdvance_last (s : State) : (sampleAdvance s).last = s.last := by
  unfold sampleAdvance; split
  · rfl
  · split <;> rfl
@[simp] theorem sampleAdvance_par (s : State) : (sampleAdvance s).par = s.par := by
  unfold sampleAdvance; split
  · rfl
  · split <;> rfl
@[simp] theorem sampleAdvance_inp (s : State) : (sampleAdvance s).inp = s.inp := by
  unfold sampleAdvance; split
  · rfl
  · split <;> rfl
@[simp] theorem sampleAdvance_tick (s : State) : (sampleAdvance s).tick = s.tick := by
  unfold sampleAdvance; split
  · rfl
  · split <;> rfl
@[simp] theorem sampleAdvance_since (s : State) : (sampleAdvance s).since = s.since := by
  unfold sampleAdvance; split
  · rfl
  · split <;> rfl
@[simp] theorem sampleAdvance_level (s : State) : (sampleAdvance s).level = s.level := by
  unfold sampleAdvance; split
  · rfl
  · split <;> rfl
@[simp] theorem sampleAdvance_trace (s : State) : (sampleAdvance s).trace = s.trace := by
  unfold sampleAdvance; split
  · rfl
  · split <;> rfl
@[simp] theorem sampleAdvance_reports (s : State) : (sampleAdvance s).reports = s.reports := by
  unfold sampleAdvance; split
  · rfl
  · split <;> rfl

/-! ### The Reporter's gate (R229) -/

@[simp] theorem reporterGate_snap (s : State) : (reporterGate s).snap = s.snap := by unfold reporterGate; split <;> rfl
@[simp] theorem reporterGate_ph (s : State) : (reporterGate s).ph = s.ph := by unfold reporterGate; split <;> rfl
@[simp] theorem reporterGate_col (s : State) : (reporterGate s).col = s.col := by unfold reporterGate; split <;> rfl
@[simp] theorem reporterGate_row (s : State) : (reporterGate s).row = s.row := by unfold reporterGate; split <;> rfl
@[simp] theorem reporterGate_dpos (s : State) : (reporterGate s).dpos = s.dpos := by unfold reporterGate; split <;> rfl
@[simp] theorem reporterGate_stl (s : State) : (reporterGate s).stl = s.stl := by unfold reporterGate; split <;> rfl
@[simp] theorem reporterGate_ser (s : State) : (reporterGate s).ser = s.ser := by unfold reporterGate; split <;> rfl
@[simp] theorem reporterGate_sck (s : State) : (reporterGate s).sck = s.sck := by unfold reporterGate; split <;> rfl
@[simp] theorem reporterGate_lat (s : State) : (reporterGate s).lat = s.lat := by unfold reporterGate; split <;> rfl
@[simp] theorem reporterGate_sh (s : State) : (reporterGate s).sh = s.sh := by unfold reporterGate; split <;> rfl
@[simp] theorem reporterGate_q (s : State) : (reporterGate s).q = s.q := by unfold reporterGate; split <;> rfl
@[simp] theorem reporterGate_par (s : State) : (reporterGate s).par = s.par := by unfold reporterGate; split <;> rfl
@[simp] theorem reporterGate_inp (s : State) : (reporterGate s).inp = s.inp := by unfold reporterGate; split <;> rfl
@[simp] theorem reporterGate_tick (s : State) : (reporterGate s).tick = s.tick := by unfold reporterGate; split <;> rfl
@[simp] theorem reporterGate_since (s : State) : (reporterGate s).since = s.since := by unfold reporterGate; split <;> rfl
@[simp] theorem reporterGate_level (s : State) : (reporterGate s).level = s.level := by unfold reporterGate; split <;> rfl
@[simp] theorem reporterGate_trace (s : State) : (reporterGate s).trace = s.trace := by unfold reporterGate; split <;> rfl

/-! ### What a step adds (R41, R181) -/

@[simp] theorem endStep_snap (s t : State) : (endStep s t).snap = t.snap := rfl
@[simp] theorem endStep_ph (s t : State) : (endStep s t).ph = t.ph := rfl
@[simp] theorem endStep_col (s t : State) : (endStep s t).col = t.col := rfl
@[simp] theorem endStep_row (s t : State) : (endStep s t).row = t.row := rfl
@[simp] theorem endStep_dpos (s t : State) : (endStep s t).dpos = t.dpos := rfl
@[simp] theorem endStep_stl (s t : State) : (endStep s t).stl = t.stl := rfl
@[simp] theorem endStep_ser (s t : State) : (endStep s t).ser = t.ser := rfl
@[simp] theorem endStep_sck (s t : State) : (endStep s t).sck = t.sck := rfl
@[simp] theorem endStep_lat (s t : State) : (endStep s t).lat = t.lat := rfl
@[simp] theorem endStep_sh (s t : State) : (endStep s t).sh = t.sh := rfl
@[simp] theorem endStep_q (s t : State) : (endStep s t).q = t.q := rfl
@[simp] theorem endStep_last (s t : State) : (endStep s t).last = t.last := rfl
@[simp] theorem endStep_par (s t : State) : (endStep s t).par = t.par := rfl
@[simp] theorem endStep_since (s t : State) : (endStep s t).since = t.since := rfl
@[simp] theorem endStep_level (s t : State) : (endStep s t).level = t.level := rfl
@[simp] theorem endStep_reports (s t : State) : (endStep s t).reports = t.reports := rfl
@[simp] theorem endStep_trace (s t : State) : (endStep s t).trace = eventOf s :: t.trace := rfl
@[simp] theorem endStep_inp (s t : State) : (endStep s t).inp = nextInputs (s.tick + 1) t.inp := rfl
@[simp] theorem endStep_tick (s t : State) : (endStep s t).tick = s.tick + 1 := rfl

/-! ### The reset state (R261) -/

@[simp] theorem resetAt_snap (n : Nat) : (State.resetAt n).snap = [] := rfl
@[simp] theorem resetAt_ph (n : Nat) : (State.resetAt n).ph = .act := rfl
@[simp] theorem resetAt_col (n : Nat) : (State.resetAt n).col = 0 := rfl
@[simp] theorem resetAt_row (n : Nat) : (State.resetAt n).row = 0 := rfl
@[simp] theorem resetAt_dpos (n : Nat) : (State.resetAt n).dpos = 0 := rfl
@[simp] theorem resetAt_stl (n : Nat) : (State.resetAt n).stl = 0 := rfl
@[simp] theorem resetAt_sck (n : Nat) : (State.resetAt n).sck = false := rfl
@[simp] theorem resetAt_last (n : Nat) : (State.resetAt n).last = 0 := rfl
@[simp] theorem resetAt_par (n : Nat) : (State.resetAt n).par = Config.params := rfl
@[simp] theorem resetAt_level (n : Nat) : (State.resetAt n).level = .l0 := rfl
@[simp] theorem resetAt_trace (n : Nat) : (State.resetAt n).trace = [] := rfl
@[simp] theorem resetAt_reports (n : Nat) : (State.resetAt n).reports = [] := rfl
@[simp] theorem resetAt_tick (n : Nat) : (State.resetAt n).tick = n := rfl
@[simp] theorem resetAt_since (n : Nat) : (State.resetAt n).since = 0 := rfl

end Sys2Proof.Machine
end

