-- ==== Sys2Proof/Laws/Memory.lean ====
section
/-! SUPPORT. The laws of the table memory: a write keeps the canonical form, is read back, and leaves every other address as it
was. -/

namespace Sys2Proof.Machine

theorem Memory.read_insert_same (x : Host.Cell) (m : Memory) (h : ∀ y ∈ m, y.1 ≠ x.1) :
    Memory.read (Memory.insert x m) x.1 = x.2 := by
  induction m with
  | nil => simp [Memory.insert, Memory.read]
  | cons y m ih =>
    have hy : y.1 ≠ x.1 := h y (by simp)
    unfold Memory.insert
    split
    · simp [Memory.read]
    · simpa [Memory.read, hy] using ih fun z hz => h z (by simp [hz])

theorem Memory.read_insert_other (x : Host.Cell) (m : Memory) (a : Nat) (h : a ≠ x.1) :
    Memory.read (Memory.insert x m) a = Memory.read m a := by
  induction m with
  | nil => simp [Memory.insert, Memory.read, h.symm]
  | cons y m ih =>
    unfold Memory.insert
    split
    · simp [Memory.read, h.symm]
    · simp [Memory.read, ih]

theorem Memory.read_filter_other (m : Memory) (a b : Nat) (h : b ≠ a) :
    Memory.read (m.filter fun x => x.1 != a) b = Memory.read m b := by
  induction m with
  | nil => rfl
  | cons y m ih =>
    by_cases hy : y.1 = a
    · have hb : ¬ y.1 = b := fun e => h (e.symm.trans hy)
      simp [hy, Memory.read, ih, h.symm]
    · simp [hy, Memory.read, ih]

theorem Memory.read_of_forall_ne (m : Memory) (a : Nat) (h : ∀ y ∈ m, y.1 ≠ a) : Memory.read m a = 0#8 := by
  induction m with
  | nil => rfl
  | cons y m ih => simp [Memory.read, h y (by simp), ih fun z hz => h z (by simp [hz])]

theorem Memory.filter_ne (m : Memory) (a : Nat) : ∀ y ∈ m.filter (fun x => x.1 != a), y.1 ≠ a := by
  intro y hy
  simpa using (List.mem_filter.mp hy).2

/-- A read after a write to the same address gives the byte written. -/
@[simp] theorem Memory.read_write_same (m : Memory) (a : Nat) (v : Byte) : (m.write a v).read a = v := by
  unfold Memory.write
  split
  · next h => simpa [h] using Memory.read_of_forall_ne _ a (Memory.filter_ne m a)
  · exact Memory.read_insert_same (a, v) _ (Memory.filter_ne m a)

/-- A write leaves every other address as it was. -/
theorem Memory.read_write_other (m : Memory) (a b : Nat) (v : Byte) (h : b ≠ a) : (m.write a v).read b = m.read b := by
  unfold Memory.write
  split
  · exact Memory.read_filter_other m a b h
  · rw [Memory.read_insert_other _ _ _ (by simpa using h)]
    exact Memory.read_filter_other m a b h

theorem Memory.mem_insert (x y : Host.Cell) (m : Memory) : y ∈ Memory.insert x m ↔ y = x ∨ y ∈ m := by
  induction m with
  | nil => simp [Memory.insert]
  | cons z m ih =>
    unfold Memory.insert
    split
    · simp
    · simp only [List.mem_cons, ih]
      tauto

theorem Memory.insert_sorted (x : Host.Cell) (m : Memory) (hm : m.Pairwise (fun x y => x.1 < y.1))
    (h : ∀ y ∈ m, y.1 ≠ x.1) : (Memory.insert x m).Pairwise (fun x y => x.1 < y.1) := by
  induction m with
  | nil => simp [Memory.insert]
  | cons z m ih =>
    obtain ⟨hz, hm'⟩ := List.pairwise_cons.mp hm
    have hne : z.1 ≠ x.1 := h z (by simp)
    unfold Memory.insert
    split
    · next hlt =>
      refine List.pairwise_cons.mpr ⟨fun y hy => ?_, hm⟩
      rcases List.mem_cons.mp hy with rfl | hy
      · exact hlt
      · exact hlt.trans (hz y hy)
    · next hlt =>
      refine List.pairwise_cons.mpr ⟨fun y hy => ?_, ih hm' fun y hy => h y (by simp [hy])⟩
      rcases (Memory.mem_insert x y m).mp hy with rfl | hy
      · omega
      · exact hz y hy

/-- Every write of a KeyState to a table address keeps the canonical form. -/
theorem Memory.wf_write (m : Memory) (a : Nat) (v : Bool) (hm : m.wf) (ha : a < 72) : (m.write a (keyByte v)).wf := by
  obtain ⟨hs, hb⟩ := hm
  have hs' : (m.filter fun x => x.1 != a).Pairwise (fun x y => x.1 < y.1) := hs.filter _
  have hb' : ∀ x ∈ m.filter (fun x => x.1 != a), x.1 < 72 ∧ x.2 = 1#8 := fun x hx => hb x (List.mem_filter.mp hx).1
  unfold Memory.write
  split
  · exact ⟨hs', hb'⟩
  · next hv =>
    refine ⟨Memory.insert_sorted _ _ hs' (Memory.filter_ne m a), fun x hx => ?_⟩
    rcases (Memory.mem_insert _ _ _).mp hx with rfl | hx
    · refine ⟨ha, ?_⟩
      cases v
      · exact absurd rfl hv
      · rfl
    · exact hb' x hx

theorem tblAddr_lt (c : Col) (r : Row) : tblAddr c r < 72 := by
  have := c.isLt
  have := r.isLt
  unfold tblAddr
  omega

theorem tblAddr_inj {c c' : Col} {r r' : Row} : tblAddr c r = tblAddr c' r' ↔ c = c' ∧ r = r' := by
  have := r.isLt
  have := r'.isLt
  simp only [tblAddr, Fin.ext_iff]
  omega

/-- A table write keeps the canonical form. -/
theorem tblWrite_wf (c : Col) (r : Row) (v : Bool) (s : State) (h : s.snap.wf) : (tblWrite c r v s).snap.wf :=
  Memory.wf_write _ _ _ h (tblAddr_lt c r)

/-- The table after reset is in canonical form. -/
theorem resetAt_snap_wf (n : Nat) : (State.resetAt n).snap.wf := by simp [Memory.wf]

theorem reset_snap_wf : State.reset.snap.wf := resetAt_snap_wf 0

@[simp] theorem keyByte_ne_zero (v : Bool) : (keyByte v != 0#8) = v := by cases v <;> rfl

/-- What a table write leaves to be read: the value at its entry, every other entry as it was (R210). -/
theorem tblRead_tblWrite (c c' : Col) (r r' : Row) (v : Bool) (s : State) :
    tblRead c' r' (tblWrite c r v s) = if c' = c ∧ r' = r then v else tblRead c' r' s := by
  unfold tblRead
  split
  · next h => obtain ⟨rfl, rfl⟩ := h; simp
  · next h =>
    rw [tblWrite_snap, Memory.read_write_other]
    exact fun e => h (tblAddr_inj.mp e)

theorem tblRead_congr {s t : State} (h : s.snap = t.snap) (c : Col) (r : Row) : tblRead c r s = tblRead c r t := by
  simp [tblRead, h]

end Sys2Proof.Machine
end

