-- ==== Sys2Proof/Laws/Ops.lean ====
section
/-! SUPPORT. One lemma per shared operation that says what it does, so that a proof cites it and unfolds nothing. -/

namespace Sys2Proof.Machine

/-! ### Constants and encodings of the position -/

/-- CPAT[c] has exactly bit c set (R34). -/
@[simp] theorem cpat_getLsbD (c : Col) (i : Nat) : (cpat c).getLsbD i = decide (i = c.val) := by
  by_cases hi : i < 8
  · have h : ∀ (c : Col) (i : Fin 8), (cpat c).getLsbD i.val = decide (i.val = c.val) := by decide
    exact h c ⟨i, hi⟩
  · have : i ≠ c.val := by have := c.isLt; omega
    simp [BitVec.getLsbD_of_ge _ _ (Nat.le_of_not_lt hi), this]

@[simp] theorem cpat_getElem (c : Col) (i : Nat) (h : i < 8) : (cpat c)[i] = decide (i = c.val) := by
  rw [← BitVec.getLsbD_eq_getElem, cpat_getLsbD]

@[simp] theorem clearPattern_getLsbD (i : Nat) : clearPattern.getLsbD i = false := by simp [clearPattern]

@[simp] theorem clearPattern_getElem (i : Nat) (h : i < 8) : clearPattern[i] = false := by simp [clearPattern]

theorem cpat_inj {c d : Col} : cpat c = cpat d ↔ c = d := by
  have h : ∀ c d : Col, cpat c = cpat d ↔ c = d := by decide
  exact h c d

theorem cpat_ne_clearPattern (c : Col) : cpat c ≠ clearPattern := by
  have h : ∀ c : Col, cpat c ≠ clearPattern := by decide
  exact h c

/-- The scanner sends CPAT[c] exactly in ACT with COL = c (R182). -/
theorem framePattern_eq_cpat {s : State} {c : Col} : framePattern s = some (cpat c) ↔ s.ph = .act ∧ s.col = c := by
  cases h : s.ph <;> simp [framePattern, h, cpat_inj, (cpat_ne_clearPattern c).symm]

/-- The scanner sends the clear pattern exactly in DEA (R186). -/
theorem framePattern_eq_clear {s : State} : framePattern s = some clearPattern ↔ s.ph = .dea := by
  cases h : s.ph <;> simp [framePattern, h, cpat_ne_clearPattern]

/-- A frame has 26 events, and the event at each position is the one of R121. -/
theorem frameEvents_getElem (p : Byte) (d : FramePos) : (frameEvents p)[d.val]? = some (eventAt p d) := by
  fin_cases d <;> rfl

/-! ### The device -/

/-- The device's shift, bit by bit: SER at the top, every other bit one place down (R134). -/
theorem getLsbD_shiftIn (b : Bool) (sh : Byte) (i : Nat) :
    (shiftIn b sh).getLsbD i = if i = 7 then b else sh.getLsbD (i + 1) := by
  unfold shiftIn
  rw [BitVec.getLsbD_cons]
  split
  · rfl
  · by_cases hi : i < 7
    · simp [hi, Nat.add_comm]
    · have : 8 ≤ i + 1 := by omega
      simp [hi, BitVec.getLsbD_of_ge _ _ this]

theorem pinWrite_ser (b : Bool) (s : State) : pinWrite ⟨.ser, b⟩ s = { s with ser := b, since := s.since + 1 } := rfl

theorem pinWrite_sck0 (s : State) : pinWrite ⟨.sck, false⟩ s = { s with sck := false, since := s.since + 1 } := rfl

theorem pinWrite_lat0 (s : State) : pinWrite ⟨.lat, false⟩ s = { s with lat := false, since := s.since + 1 } := rfl

/-- A rise of SCK shifts SER in (R124). -/
theorem pinWrite_sck1 {s : State} (h : s.sck = false) :
    pinWrite ⟨.sck, true⟩ s = { s with sck := true, sh := shiftIn s.ser s.sh, since := s.since + 1 } := by simp [pinWrite, h]

/-- A rise of LAT commits SH to Q (R126). -/
theorem pinWrite_lat1 {s : State} (h : s.lat = false) :
    pinWrite ⟨.lat, true⟩ s = { s with lat := true, q := s.sh, since := 0 } := by simp [pinWrite, h]

/-- One bit of a frame, from a low clock: the line, a low clock again, and the bit shifted in. -/
theorem foldl_bitEvents (b : Bool) (s : State) (h : s.sck = false) :
    (bitEvents b).foldl (fun t e => pinWrite e t) s
      = { s with ser := b, sck := false, sh := shiftIn b s.sh, since := s.since + 3 } := by
  simp [bitEvents, pinWrite, h]

/-- A list of bits sent from a low clock: the last one stays on SER, and all are shifted in. -/
theorem foldl_flatMap_bitEvents (bs : List Bool) (s : State) (h : s.sck = false) :
    (bs.flatMap bitEvents).foldl (fun t e => pinWrite e t) s
      = { s with
          ser := bs.getLastD s.ser, sck := false, sh := bs.foldl (fun x b => shiftIn b x) s.sh,
          since := s.since + 3 * bs.length } := by
  induction bs generalizing s with
  | nil => simp [← h]
  | cons b bs ih =>
    rw [List.flatMap_cons, List.foldl_append, foldl_bitEvents b s h, ih _ rfl]
    simp only [List.foldl_cons, List.getLastD_cons, List.length_cons, Nat.mul_add, Nat.add_assoc, Nat.add_comm 3]

/-- Eight shifts put a byte's bits, sent least-significant first, at their own places, whatever SH held (R94). -/
theorem foldl_shiftIn_bits (p x : Byte) :
    ((List.range 8).map p.getLsbD).foldl (fun x b => shiftIn b x) x = p := by
  apply BitVec.eq_of_getLsbD_eq
  intro i hi
  simp only [show List.range 8 = [0, 1, 2, 3, 4, 5, 6, 7] from rfl, List.map, List.foldl, getLsbD_shiftIn]
  interval_cases i <;> rfl

/-- A frame is LAT0, the eight bits, LAT1 (R121). -/
theorem frameEvents_eq (p : Byte) :
    frameEvents p = ⟨.lat, false⟩ :: (((List.range 8).map p.getLsbD).flatMap bitEvents ++ [⟨.lat, true⟩]) := rfl

/-- All that TRANSMIT does, from a low clock (R129). -/
theorem transmit_eq (p : Byte) (s : State) (h : s.sck = false) :
    transmit p s = { s with ser := p.getLsbD 7, sck := false, lat := true, sh := p, q := p, since := 0 } := by
  rw [transmit, frameEvents_eq, List.foldl_cons, List.foldl_append, pinWrite_lat0,
    foldl_flatMap_bitEvents _ _ (by simpa using h), foldl_shiftIn_bits]
  rfl

/-! ### The position -/

theorem frameDone_act {s : State} (h : s.ph = .act) :
    frameDone s = { s with ph := .stl, dpos := 0, stl := s.par.settleTicks } := by simp [frameDone, h]

theorem frameDone_dea {s : State} (h : s.ph = .dea) : frameDone s = { s with ph := .idle, dpos := 0 } := by
  simp [frameDone, h]

theorem frameAdvance_inside {s : State} (h : s.dpos.val < 25) : frameAdvance s = { s with dpos := s.dpos + 1 } := by
  simp [frameAdvance, h]

theorem frameAdvance_end {s : State} (h : s.dpos.val = 25) : frameAdvance s = frameDone s := by
  simp [frameAdvance, h]

theorem pinOp_due {e : PinEvent} {s : State} (h : dueEvent s = some e) : pinOp e s = frameAdvance (pinWrite e s) := by
  simp [pinOp, pinStep, h]

theorem pinOp_not_due {e : PinEvent} {s : State} (h : dueEvent s ≠ some e) : pinOp e s = pinWrite e s := by
  simp [pinOp, pinStep, h]

theorem dueEvent_act {s : State} (h : s.ph = .act) : dueEvent s = some (eventAt (cpat s.col) s.dpos) := by
  simp [dueEvent, framePattern, h]

theorem dueEvent_dea {s : State} (h : s.ph = .dea) : dueEvent s = some (eventAt clearPattern s.dpos) := by
  simp [dueEvent, framePattern, h]

theorem dueEvent_none {s : State} (h : s.ph = .idle ∨ s.ph = .stl ∨ s.ph = .smp) : dueEvent s = none := by
  rcases h with h | h | h <;> simp [dueEvent, framePattern, h]

theorem settleTick_more {s : State} (h : 1 < s.stl) : settleTick s = { s with stl := s.stl - 1, since := s.since + 1 } := by
  simp [settleTick, passed, h]

theorem settleTick_end {s : State} (h : s.stl ≤ 1) : settleTick s = settleDone s := by
  simp [settleTick, Nat.not_lt.mpr h]

theorem sampleAdvance_row {s : State} (h : s.row.val < 8) : sampleAdvance s = { s with row := s.row + 1 } := by
  simp [sampleAdvance, h]

theorem sampleAdvance_column {s : State} (h : s.row.val = 8) (hc : s.col.val < 7) :
    sampleAdvance s = { s with row := 0, col := s.col + 1, ph := .act } := by simp [sampleAdvance, h, hc, seqNext]

theorem sampleAdvance_sweep {s : State} (h : s.row.val = 8) (hc : s.col.val = 7) :
    sampleAdvance s = { s with row := 0, col := 0, ph := .dea } := by simp [sampleAdvance, h, hc, seqStart]

/-! ### Reading a row (R162) -/

/-- Settled is PH = SMP with the delay passed since the commit (R40, R162). -/
theorem settled_iff {s : State} : settled s = true ↔ s.ph = .smp ∧ s.par.settleTicks ≤ s.since := by simp [settled]

theorem pinRead_high {r : Row} {s : State} (h : s.par.stuck.get r = .high) : pinRead r s = true := by simp [pinRead, h]

theorem pinRead_low {r : Row} {s : State} (h : s.par.stuck.get r = .low) : pinRead r s = false := by simp [pinRead, h]

theorem pinRead_unsettled {r : Row} {s : State} (h : s.par.stuck.get r = .none) (hu : settled s = false) :
    pinRead r s = s.inp.draw := by simp [pinRead, h, hu]

theorem pinRead_isolated {r : Row} {s : State} (h : s.par.stuck.get r = .none) (hs : settled s = true)
    (hm : s.par.matrixKind = .isolated) : pinRead r s = isolatedLevel s.q s.inp.keys r := by
  simp [pinRead, h, hs, hm]

theorem pinRead_unisolated {r : Row} {s : State} (h : s.par.stuck.get r = .none) (hs : settled s = true)
    (hm : s.par.matrixKind = .unisolated) :
    pinRead r s = unisolatedLevel s.q s.inp.keys s.inp.draw r := by
  simp [pinRead, h, hs, hm]

theorem mem_allCols (c : Col) : c ∈ allCols := by
  have h : ∀ c : Col, c ∈ allCols := by decide
  exact h c

theorem mem_allRows (r : Row) : r ∈ allRows := by
  have h : ∀ r : Row, r ∈ allRows := by decide
  exact h r

theorem mem_touchedRows {k : Keys} {cs : List Col} {r : Row} :
    r ∈ touchedRows k cs ↔ ∃ c ∈ cs, closed k c r = true := by
  simp [touchedRows, mem_allRows]

theorem mem_spreadOnce {k : Keys} {cs : List Col} {c : Col} :
    c ∈ spreadOnce k cs ↔ c ∈ cs ∨ ∃ r ∈ touchedRows k cs, closed k c r = true := by
  simp [spreadOnce, mem_allCols]

end Sys2Proof.Machine
end

