-- ==== Sys2Proof/Laws/Step.lean ====
section
/-! SUPPORT. What a step can do, said once: which operation it runs in each phase, and what it answers. -/

namespace Sys2Proof.Machine

/-! ### The operation at a position (R36, R96) -/

theorem fetch_idle {s : State} (h : s.ph = .idle) (hc : s.col = 0) (hr : s.row = 0) : fetch s = .ok .yield := by
  simp only [fetch, seqWord, h, hc, hr]; rfl

theorem fetch_act {s : State} (h : s.ph = .act) (hr : s.row = 0) : fetch s = .ok (.actC s.col) := by
  have key : ∀ c : Col, decode (.seq (packSeq (phaseCode .act) c 0)) = .ok (.actC c) := by intro c; fin_cases c <;> rfl
  simpa only [fetch, seqWord, h, hr] using key s.col

theorem fetch_stl {s : State} (h : s.ph = .stl) (hr : s.row = 0) : fetch s = .ok (.tick s.col) := by
  have key : ∀ c : Col, decode (.seq (packSeq (phaseCode .stl) c 0)) = .ok (.tick c) := by intro c; fin_cases c <;> rfl
  simpa only [fetch, seqWord, h, hr] using key s.col

theorem fetch_smp {s : State} (h : s.ph = .smp) : fetch s = .ok (.smp s.col s.row) := by
  have key : ∀ (c : Col) (r : Row), decode (.seq (packSeq (phaseCode .smp) c r)) = .ok (.smp c r) := by
    intro c r; fin_cases c <;> fin_cases r <;> rfl
  simpa only [fetch, seqWord, h] using key s.col s.row

theorem fetch_dea {s : State} (h : s.ph = .dea) (hc : s.col = 0) (hr : s.row = 0) : fetch s = .ok .dea := by
  simp only [fetch, seqWord, h, hc, hr]; rfl

/-- What a fetched operation says of the position. -/
theorem fetch_cases {s : State} {i : Instr} (h : fetch s = .ok i) :
    (s.ph = .idle ∧ s.col = 0 ∧ s.row = 0 ∧ i = .yield) ∨ (s.ph = .act ∧ s.row = 0 ∧ i = .actC s.col)
    ∨ (s.ph = .stl ∧ s.row = 0 ∧ i = .tick s.col) ∨ (s.ph = .smp ∧ i = .smp s.col s.row)
    ∨ (s.ph = .dea ∧ s.col = 0 ∧ s.row = 0 ∧ i = .dea) := by
  have stray : ∀ (c : Col) (r : Row) (j : Instr), (c ≠ 0 ∨ r ≠ 0) →
      decode (.seq (packSeq 0 c r)) ≠ .ok j ∧ decode (.seq (packSeq 4 c r)) ≠ .ok j := by
    intro c r j; fin_cases c <;> fin_cases r <;> intro h <;> first | (simp at h; done) | exact ⟨nofun, nofun⟩
  have strayRow : ∀ (c : Col) (r : Row) (j : Instr), r ≠ 0 →
      decode (.seq (packSeq 1 c r)) ≠ .ok j ∧ decode (.seq (packSeq 2 c r)) ≠ .ok j := by
    intro c r j; fin_cases c <;> fin_cases r <;> intro h <;> first | (simp at h; done) | exact ⟨nofun, nofun⟩
  have h' : decode (.seq (packSeq (phaseCode s.ph) s.col s.row)) = .ok i := h
  cases hp : s.ph <;> rw [hp] at h'
  · by_cases hz : s.col = 0 ∧ s.row = 0
    · rw [fetch_idle hp hz.1 hz.2] at h; simp_all
    · exact absurd h' (stray _ _ _ (by tauto)).1
  · by_cases hz : s.row = 0
    · rw [fetch_act hp hz] at h; simp_all
    · exact absurd h' (strayRow _ _ _ hz).1
  · by_cases hz : s.row = 0
    · rw [fetch_stl hp hz] at h; simp_all
    · exact absurd h' (strayRow _ _ _ hz).2
  · rw [fetch_smp hp] at h; simp_all
  · by_cases hz : s.col = 0 ∧ s.row = 0
    · rw [fetch_dea hp hz.1 hz.2] at h; simp_all
    · exact absurd h' (stray _ _ _ (by tauto)).2

/-! ### The answers of a step -/

/-- A step answers a next state exactly when the operation at the position does. -/
theorem step_next_iff {s t : State} :
    step s = .next t ↔ ∃ i u, fetch s = .ok i ∧ exec i s = .next u ∧ t = endStep s u := by
  unfold step
  constructor
  · intro h
    split at h
    · cases h
    · next i hi =>
      split at h
      · next u hu => exact ⟨i, u, hi, hu, by simpa using h.symm⟩
      · cases h
      · cases h
  · rintro ⟨i, u, hf, he, rfl⟩
    simp [hf, he]

theorem exec_smp_place {s : State} (h : s.ph = .smp) :
    exec (.smp s.col s.row) s = .next (sampleAdvance (passed (wr s.col s.row (pinRead s.row s) s))) := by
  simp [exec, execSmp, h, rd]

theorem exec_tick_place {s : State} (h : s.ph = .stl) :
    exec (.tick s.col) s = .next (match s.level with | .l0 => settleTick s | .l1 => settleDone s) := by
  simp only [exec, execTick, h, and_self, if_true]
  cases s.level <;> rfl

theorem exec_yield_place {s : State} (h : s.ph = .idle) (hn : s.last ≤ s.inp.now) :
    exec .yield s = .next { passed (reporterGate s) with ph := .act, col := 0, row := 0, dpos := 0, stl := 0 } := by
  simp [exec, execYield, h, Nat.not_lt.mpr hn]

theorem exec_actC_place {s : State} (h : s.ph = .act) :
    exec (.actC s.col) s = .next (match s.level with
      | .l0 => frameAdvance (pinWrite (eventAt (cpat s.col) s.dpos) s)
      | .l1 => frameDone (transmit (cpat s.col) s)) := by
  cases hl : s.level <;> simp only [exec, execActC, driverPhase, pinStep, h, hl, beq_self_eq_true, Bool.and_self, if_true]

theorem exec_dea_place {s : State} (h : s.ph = .dea) :
    exec .dea s = .next (match s.level with
      | .l0 => frameAdvance (pinWrite (eventAt clearPattern s.dpos) s)
      | .l1 => frameDone (transmit clearPattern s)) := by
  cases hl : s.level <;> simp only [exec, execDea, driverPhase, pinStep, h, hl, beq_self_eq_true, if_true]

/-- The five shapes of a step that answers: `u` is the state before what every step adds. -/
theorem step_cases {s t : State} (h : step s = .next t) : ∃ u, t = endStep s u ∧
    ((s.ph = .idle ∧ s.col = 0 ∧ s.row = 0 ∧ s.last ≤ s.inp.now
        ∧ u = { passed (reporterGate s) with ph := .act, col := 0, row := 0, dpos := 0, stl := 0 })
    ∨ (s.ph = .act ∧ s.row = 0 ∧ u = (match s.level with
        | .l0 => frameAdvance (pinWrite (eventAt (cpat s.col) s.dpos) s)
        | .l1 => frameDone (transmit (cpat s.col) s)))
    ∨ (s.ph = .stl ∧ s.row = 0 ∧ u = (match s.level with | .l0 => settleTick s | .l1 => settleDone s))
    ∨ (s.ph = .smp ∧ u = sampleAdvance (passed (wr s.col s.row (pinRead s.row s) s)))
    ∨ (s.ph = .dea ∧ s.col = 0 ∧ s.row = 0 ∧ u = (match s.level with
        | .l0 => frameAdvance (pinWrite (eventAt clearPattern s.dpos) s)
        | .l1 => frameDone (transmit clearPattern s)))) := by
  obtain ⟨i, u, hf, he, rfl⟩ := step_next_iff.mp h
  refine ⟨u, rfl, ?_⟩
  rcases fetch_cases hf with ⟨hp, hc, hr, rfl⟩ | ⟨hp, hr, rfl⟩ | ⟨hp, hr, rfl⟩ | ⟨hp, rfl⟩ | ⟨hp, hc, hr, rfl⟩
  · by_cases hn : s.last ≤ s.inp.now
    · rw [exec_yield_place hp hn] at he
      exact .inl ⟨hp, hc, hr, hn, by simpa using he.symm⟩
    · simp [exec, execYield, Nat.lt_of_not_le hn] at he
  · rw [exec_actC_place hp] at he
    exact .inr (.inl ⟨hp, hr, by simpa using he.symm⟩)
  · rw [exec_tick_place hp] at he
    exact .inr (.inr (.inl ⟨hp, hr, by simpa using he.symm⟩))
  · rw [exec_smp_place hp] at he
    exact .inr (.inr (.inr (.inl ⟨hp, by simpa using he.symm⟩)))
  · rw [exec_dea_place hp] at he
    exact .inr (.inr (.inr (.inr ⟨hp, hc, hr, by simpa using he.symm⟩)))

/-! ### Runs -/

theorem stepN_succ (n : Nat) {s t : State} (h : step s = .next t) : stepN (n + 1) s = stepN n t := by simp [stepN, h]

/-- A run of `m + n` steps is a run of `m` and then one of `n`. -/
theorem stepN_add (m n : Nat) {s t : State} (h : stepN m s = .next t) : stepN (m + n) s = stepN n t := by
  induction m generalizing s with
  | zero => simp only [stepN, Host.Outcome.next.injEq] at h; simp [h]
  | succ m ih =>
    rw [Nat.add_right_comm]
    cases hs : step s with
    | next u => simp only [stepN, hs] at h ⊢; exact ih h
    | fault f => simp [stepN, hs] at h
    | refused r => simp [stepN, hs] at h

end Sys2Proof.Machine
end

