-- ==== Sys2Proof/Laws/PerInstr.lean ====
section
/-! SUPPORT. Statements made per instruction: every operation is encoded as a legal word (R92, R95, R96, R99). -/

namespace Sys2Proof.Laws.EncodesLegal

/-- The encoding of the operation is a legal word. -/
def Statement (i : Instr) : Prop := (encode i).wellFormed = true

theorem ser0 : Statement .ser0 := rfl
theorem ser1 : Statement .ser1 := rfl
theorem sck0 : Statement .sck0 := rfl
theorem sck1 : Statement .sck1 := rfl
theorem lat0 : Statement .lat0 := rfl
theorem lat1 : Statement .lat1 := rfl
theorem act0 : Statement .act0 := rfl
theorem act1 : Statement .act1 := rfl
theorem act2 : Statement .act2 := rfl
theorem act3 : Statement .act3 := rfl
theorem act4 : Statement .act4 := rfl
theorem act5 : Statement .act5 := rfl
theorem act6 : Statement .act6 := rfl
theorem act7 : Statement .act7 := rfl
theorem clr : Statement .clr := rfl
theorem yield : Statement .yield := rfl
theorem actC (c : Col) : Statement (.actC c) := by fin_cases c <;> rfl
theorem tick (c : Col) : Statement (.tick c) := by fin_cases c <;> rfl
theorem smp (c : Col) (r : Row) : Statement (.smp c r) := by fin_cases c <;> fin_cases r <;> rfl
theorem dea : Statement .dea := rfl

end Sys2Proof.Laws.EncodesLegal
end

