-- ==== Sys2Proof/Tests/Slice0.lean ====
section
/-! SUPPORT. Small tests: ill-formed words refused, words written out from the encoding tables, the spec's own vectors
(95_test_vectors.md) for one step each, and, for every statement with hypotheses, a witness that meets them. -/

namespace Sys2Proof.Tests

open Sys2Proof Sys2Proof.Machine

/-! ## Helpers -/

/-- The contacts that a list of (column, row) pairs closes. -/
def keysOf (ks : List (Nat × Nat)) : Keys :=
  Vector.ofFn fun c : Fin 8 => Vector.ofFn fun r : Fin 9 => ks.contains (c.val, r.val)

/-- A state with every field concrete: start of ACT 0 at L0, SETTLE_TICKS = 2, isolated, unstuck, no key closed. -/
def base : State where
  snap := []
  ph := .act
  col := 0
  row := 0
  dpos := 0
  stl := 0
  ser := false
  sck := false
  lat := true
  sh := 0x04#8
  q := 0x04#8
  last := 0
  par := { settleTicks := 2, matrixKind := .isolated, stuck := Vector.replicate 9 .none }
  inp := { keys := keysOf [], now := 0, draw := false }
  tick := 0
  since := 0
  level := .l0
  trace := []
  reports := []

/-- `base` at a place of a frame, as the frame itself leaves the lines there: latch low inside, clock as R42 says. -/
def inFrame (ph : Phase) (c : Col) (d : FramePos) : State :=
  { base with ph := ph, col := c, dpos := d, lat := d.val == 0, sck := d.val % 3 == 0 && d.val != 0 }

/-- `base` in Settle, of whose two ticks `n` are still to take. -/
def inStl (c : Col) (n : Nat) : State := { base with ph := .stl, col := c, stl := n, q := cpat c, sh := cpat c, since := 2 - n }

/-- `base` in Sample, under column `c`, the two ticks passed. -/
def inSmp (c : Col) (r : Row) (ks : List (Nat × Nat)) : State :=
  { base with
    ph := .smp, col := c, row := r, q := cpat c, sh := cpat c, since := 2 + r.val,
    inp := { base.inp with keys := keysOf ks } }

/-- `base` in IDLE at a clock and a last report. -/
def inIdle (now last : Nat) : State :=
  { base with ph := .idle, q := 0#8, sh := 0#8, last := last, inp := { base.inp with now := now } }

/-- A state at level L1. -/
def atL1 (s : State) : State := { s with level := .l1 }

/-- A state with one row line stuck. -/
def stuckAt (r : Fin 9) (k : Stuck) (s : State) : State := { s with par := { s.par with stuck := s.par.stuck.set r k } }

/-- A state on a matrix without diodes. -/
def unisolated (s : State) : State := { s with par := { s.par with matrixKind := .unisolated } }

/-- What one field of the next state is, if there is a next state. -/
def look {α : Type} (o : Host.Outcome State Fault Refusal) (f : State → α) : Option α :=
  match o with
  | .next t => some (f t)
  | .fault _ => none
  | .refused _ => none

/-- The refusal, if there is one. -/
def refusal (o : Host.Outcome State Fault Refusal) : Option Refusal :=
  match o with
  | .next _ => none
  | .fault _ => none
  | .refused r => some r

/-- The sequencer position (R36). -/
def pos (s : State) : Phase × Nat × Nat × Nat × Nat := (s.ph, s.col.val, s.row.val, s.dpos.val, s.stl)

/-- The lines and the device. -/
def lines (s : State) : Bool × Bool × Bool × Byte × Byte := (s.ser, s.sck, s.lat, s.sh, s.q)

/-! ## Well-formedness (R98, R99, V-E2, V-E3) -/

theorem test_pe_no_such_line : (Code.pe 6#3).wellFormed = false ∧ (Code.pe 7#3).wellFormed = false
    ∧ decode (.pe 6#3) = .error .noSuchLine ∧ decode (.pe 7#3) = .error .noSuchLine := by decide

theorem test_f8_two_columns : (Code.f8 0x03#8).wellFormed = false ∧ (Code.f8 0xA5#8).wellFormed = false
    ∧ decode (.f8 0x03#8) = .error .manyColumns ∧ decode (.f8 0xA5#8) = .error .manyColumns := by decide

theorem test_seq_row_out_of_range : (Code.seq 0x1B9#10).wellFormed = false ∧ (Code.seq 0x1FF#10).wellFormed = false
    ∧ decode (.seq 0x1B9#10) = .error .rowOutOfRange ∧ decode (.seq 0x1FF#10) = .error .rowOutOfRange := by decide

theorem test_seq_no_such_phase : (Code.seq 0x280#10).wellFormed = false ∧ (Code.seq 0x300#10).wellFormed = false
    ∧ (Code.seq 0x380#10).wellFormed = false ∧ decode (.seq 0x280#10) = .error .noSuchPhase
    ∧ decode (.seq 0x300#10) = .error .noSuchPhase ∧ decode (.seq 0x380#10) = .error .noSuchPhase := by decide

/-- COL or ROW in IDLE, ROW in ACT, ROW in STL, COL or ROW in DEA. -/
theorem test_seq_stray_operand : (Code.seq 0x010#10).wellFormed = false ∧ (Code.seq 0x001#10).wellFormed = false
    ∧ (Code.seq 0x081#10).wellFormed = false ∧ (Code.seq 0x101#10).wellFormed = false
    ∧ (Code.seq 0x210#10).wellFormed = false ∧ (Code.seq 0x201#10).wellFormed = false
    ∧ decode (.seq 0x010#10) = .error .strayOperand ∧ decode (.seq 0x101#10) = .error .strayOperand
    ∧ decode (.seq 0x210#10) = .error .strayOperand := by decide

/-! ## Decoding, one word for each constructor, bit by bit from R92, R95, R96 -/

theorem test_decode_pe : decode (.pe 0b000#3) = .ok .ser0 ∧ decode (.pe 0b001#3) = .ok .ser1
    ∧ decode (.pe 0b010#3) = .ok .sck0 ∧ decode (.pe 0b011#3) = .ok .sck1
    ∧ decode (.pe 0b100#3) = .ok .lat0 ∧ decode (.pe 0b101#3) = .ok .lat1 := by decide

theorem test_decode_f8 : decode (.f8 0b00000001#8) = .ok .act0 ∧ decode (.f8 0b00000010#8) = .ok .act1
    ∧ decode (.f8 0b00000100#8) = .ok .act2 ∧ decode (.f8 0b00001000#8) = .ok .act3
    ∧ decode (.f8 0b00010000#8) = .ok .act4 ∧ decode (.f8 0b00100000#8) = .ok .act5
    ∧ decode (.f8 0b01000000#8) = .ok .act6 ∧ decode (.f8 0b10000000#8) = .ok .act7
    ∧ decode (.f8 0b00000000#8) = .ok .clr := by decide

/-- V-E2. -/
theorem test_decode_seq : decode (.seq 0b0000000000#10) = .ok .yield ∧ decode (.seq 0b0011110000#10) = .ok (.actC 7)
    ∧ decode (.seq 0b0100110000#10) = .ok (.tick 3) ∧ decode (.seq 0b0110110101#10) = .ok (.smp 3 5)
    ∧ decode (.seq 0b1000000000#10) = .ok .dea := by decide

/-- A table row's word, in its own width and in whole bytes (log 15). -/
theorem test_table_words : decodeTableWord 3 5 = some .lat1 ∧ decodeTableWord 8 5 = some .lat1
    ∧ decodeTableWord 8 0x10 = some .act4 ∧ decodeTableWord 10 0x1B5 = some (.smp 3 5)
    ∧ decodeTableWord 16 0x1B5 = some (.smp 3 5) ∧ decodeTableWord 16 0x1B9 = none ∧ decodeTableWord 16 0x400 = none := by
  decide

/-- A placed word is the next step's operation: the step answers, and its event says which operation it was (log 16). -/
theorem test_placed_words :
    (look (step (State.reset.withFetchWord 3 0b101)) fun t => t.tick) = some 1
    ∧ eventOf (State.reset.withFetchWord 3 0b101) = .pin ⟨.lat, true⟩
    ∧ (look (step (State.reset.withFetchWord 8 0x08)) fun t => t.tick) = some 1
    ∧ eventOf (State.reset.withFetchWord 8 0x08) = .act 3
    ∧ (look (step (State.reset.withFetchWord 16 0x130)) fun t => t.tick) = some 1
    ∧ eventOf (State.reset.withFetchWord 16 0x130) = .tick
    ∧ (look (step (State.reset.withFetchWord 16 0x000)) fun t => t.tick) = some 1
    ∧ eventOf (State.reset.withFetchWord 16 0x000) = .yield := by
  refine ⟨?_, ?_, ?_, ?_, ?_, ?_, ?_, ?_⟩ <;> rfl

/-! ## Pin events: V-D1 (ACT 3 from the state ACT 2 left), V-D5 -/

theorem test_lat0 : look (exec .lat0 (inFrame .act 3 0)) lines = some (false, false, false, 0x04#8, 0x04#8)
    ∧ look (exec .lat0 (inFrame .act 3 0)) pos = some (.act, 3, 0, 1, 0) := by decide

theorem test_ser1 : look (exec .ser1 (inFrame .act 3 10)) lines = some (true, false, false, 0x04#8, 0x04#8)
    ∧ look (exec .ser1 (inFrame .act 3 10)) pos = some (.act, 3, 0, 11, 0) := by decide

theorem test_ser0 : look (exec .ser0 (inFrame .act 3 22)) lines = some (false, false, false, 0x04#8, 0x04#8)
    ∧ look (exec .ser0 (inFrame .act 3 22)) pos = some (.act, 3, 0, 23, 0) := by decide

/-- Events 2 and 11 of V-D1: SH 0x04 to 0x02 with SER 0, and 0x00 to 0x80 with SER 1. -/
theorem test_sck1 : look (exec .sck1 (inFrame .act 3 2)) lines = some (false, true, false, 0x02#8, 0x04#8)
    ∧ look (exec .sck1 { inFrame .act 3 11 with ser := true, sh := 0x00#8 }) lines
      = some (true, true, false, 0x80#8, 0x04#8) := by decide

/-- No shift without an edge (R134). -/
theorem test_sck1_no_edge :
    look (exec .sck1 { inFrame .act 3 2 with sck := true, ser := true }) lines = some (true, true, false, 0x04#8, 0x04#8) := by
  decide

theorem test_sck0 : look (exec .sck0 (inFrame .act 3 24)) lines = some (false, false, false, 0x04#8, 0x04#8)
    ∧ look (exec .sck0 (inFrame .act 3 24)) pos = some (.act, 3, 0, 25, 0) := by decide

/-- Event 25 of V-D1. -/
theorem test_lat1_commit :
    look (exec .lat1 { inFrame .act 3 25 with sh := 0x08#8 }) lines = some (false, false, true, 0x08#8, 0x08#8) := by decide

/-- T2 and T9 of V-C1. -/
theorem test_lat1_position : look (exec .lat1 (inFrame .act 3 25)) pos = some (.stl, 3, 0, 0, 2)
    ∧ look (exec .lat1 (inFrame .dea 0 25)) pos = some (.idle, 0, 0, 0, 0) := by decide

/-! ## Frames: V-D2, V-D4 -/

theorem test_act0 : look (exec .act0 { atL1 base with sh := 0#8, q := 0#8 }) lines
    = some (false, false, true, 0x01#8, 0x01#8) := by decide

theorem test_act7 : look (exec .act7 { atL1 base with col := 7, sh := 0x01#8, q := 0x01#8 }) lines
    = some (true, false, true, 0x80#8, 0x80#8) := by decide

/-- The other six frames, from a possible reset draw. -/
theorem test_act1_to_act6 :
    ([Instr.act1, .act2, .act3, .act4, .act5, .act6].map fun i =>
      look (exec i { base with ser := true, lat := false, sh := 0x5A#8, q := 0xC3#8 }) fun t => t.q)
    = [some 0x02#8, some 0x04#8, some 0x08#8, some 0x10#8, some 0x20#8, some 0x40#8] := by decide

/-- V-D2, first row: a frame that starts with LAT = 0 still commits. -/
theorem test_clr : look (exec .clr { inFrame .dea 0 0 with ser := true, lat := false, sh := 0x5A#8, q := 0xC3#8 }) lines
    = some (false, false, true, 0x00#8, 0x00#8) := by decide

theorem test_transmit_any_byte : (transmit 0xA5#8 { base with sh := 0xFF#8, q := 0xFF#8 }).q = 0xA5#8 := by decide

/-! ## Scanner: V-C1, V-S1 to V-S15, V-R -/

theorem test_actC : look (exec (.actC 3) (atL1 (inFrame .act 3 0))) pos = some (.stl, 3, 0, 0, 2)
    ∧ look (exec (.actC 3) (inFrame .act 3 24)) pos = some (.act, 3, 0, 25, 0) := by decide

theorem test_dea : look (exec .dea (inFrame .dea 0 25)) pos = some (.idle, 0, 0, 0, 0)
    ∧ look (exec .dea (atL1 { inFrame .dea 0 0 with q := 0x80#8 })) (fun t => (t.q, t.ph)) = some (0x00#8, .idle) := by decide

theorem test_tick : look (exec (.tick 3) (inStl 3 2)) pos = some (.stl, 3, 0, 0, 1)
    ∧ look (exec (.tick 3) (inStl 3 1)) pos = some (.smp, 3, 0, 0, 0) := by decide

theorem test_smp_position : look (exec (.smp 3 5) (inSmp 3 5 [])) pos = some (.smp, 3, 6, 0, 0)
    ∧ look (exec (.smp 3 8) (inSmp 3 8 [])) pos = some (.act, 4, 0, 0, 0)
    ∧ look (exec (.smp 7 8) (inSmp 7 8 [])) pos = some (.dea, 0, 0, 0, 0) := by decide

/-- V-W1, V-W2, V-W3: addresses 32 and 71, and a release. -/
theorem test_smp_table : look (exec (.smp 3 5) (inSmp 3 5 [(3, 5)])) (fun t => t.snap) = some [(32, 1#8)]
    ∧ look (exec (.smp 7 8) (inSmp 7 8 [(7, 8)])) (fun t => t.snap) = some [(71, 1#8)]
    ∧ look (exec (.smp 3 5) { inSmp 3 5 [] with snap := [(32, 1#8)] }) (fun t => t.snap) = some [] := by decide

/-- V-S1 to V-S7 and V-S15, the isolated matrix. -/
theorem test_isolated_reads :
    pinRead 5 (inSmp 3 5 [(3, 5)]) = true ∧ pinRead 4 (inSmp 3 4 [(3, 5)]) = false ∧ pinRead 5 (inSmp 2 5 [(3, 5)]) = false
    ∧ pinRead 5 { inSmp 3 5 [(3, 5)] with q := 0x00#8 } = false
    ∧ pinRead 0 (inSmp 0 0 [(0, 0), (7, 8)]) = true ∧ pinRead 8 (inSmp 0 8 [(0, 0), (7, 8)]) = false
    ∧ pinRead 0 (inSmp 1 0 [(0, 0), (0, 1), (1, 1)]) = false
    ∧ pinRead 2 { inSmp 0 2 [(0, 2), (2, 2)] with q := 0x05#8 } = true := by decide

/-- V-S9, V-S10, V-S11, the unisolated matrix. -/
theorem test_unisolated_reads :
    pinRead 2 (unisolated (inSmp 1 2 [(0, 0), (0, 1), (1, 1)])) = false
    ∧ pinRead 0 (unisolated (inSmp 2 0 [(0, 0), (0, 1), (1, 1)])) = false
    ∧ pinRead 5 (unisolated (inSmp 3 5 [(3, 5)])) = true := by decide

/-- V-S8: both rows are the step's draw, whichever it is. -/
theorem test_unisolated_draws : ∀ b : Bool,
    pinRead 0 { unisolated (inSmp 1 0 []) with inp := ⟨keysOf [(0, 0), (0, 1), (1, 1)], 0, b⟩ } = b
    ∧ pinRead 1 { unisolated (inSmp 1 1 []) with inp := ⟨keysOf [(0, 0), (0, 1), (1, 1)], 0, b⟩ } = b := by decide

/-- R162 case 2, R167: in SMP one step short of the delay the read is the draw, whatever the key; so is the read of a sample
placed just after a commit (log 16), and the one after a frame executed in SMP. -/
theorem test_read_before_the_delay : ∀ b : Bool,
    pinRead 5 { inSmp 3 5 [] with since := 1, inp := ⟨keysOf [(3, 5)], 0, b⟩ } = b
    ∧ pinRead 5 { placeAt (.smp 3 5) (inStl 3 2) with inp := ⟨keysOf [(3, 5)], 0, b⟩ } = b
    ∧ look (exec .act3 { inSmp 3 5 [] with inp := ⟨keysOf [(3, 5)], 0, b⟩ }) (pinRead 5) = some b := by decide

/-- V-S12, V-S13, V-S14. -/
theorem test_stuck_and_unsettled_reads : pinRead 5 (stuckAt 5 .high (inSmp 3 5 [])) = true
    ∧ pinRead 5 (stuckAt 5 .low (inSmp 3 5 [(3, 5)])) = false
    ∧ ∀ b : Bool, pinRead 5 { inStl 3 1 with inp := ⟨keysOf [(3, 5)], 0, b⟩ } = b := by decide

/-- The Reporter's gate: 999 after a report at 3500, then 1000 after it. -/
theorem test_yield_gate :
    look (exec .yield (inIdle 4499 3500)) (fun t => (t.last, t.reports.length)) = some (3500, 0)
    ∧ look (exec .yield (inIdle 4500 3500)) (fun t => (t.last, t.reports.length)) = some (4500, 1) := by decide

/-- T10 of V-C1; and the report of S-9, row 5 of scenario 2. -/
theorem test_yield_position : look (exec .yield (inIdle 2 0)) pos = some (.act, 0, 0, 0, 0)
    ∧ (report { inIdle 1000 0 with snap := [(32, 1#8)] })[7]?
      = some (.values 5 [false, false, false, true, false, false, false, false]) := by decide

/-- P2: the table as a 72-bit word, only bit 32 set. -/
theorem test_packed_view : tableWord { base with snap := [(32, 1#8)] } = 0x000000000100000000#72
    ∧ columnWord 3 { base with snap := [(32, 1#8)] } = 0b000100000#9 := by
  decide +kernel

/-- V-X1, V-X4. -/
theorem test_reset : pos State.reset = (.act, 0, 0, 0, 0) ∧ State.reset.sck = false ∧ State.reset.snap = []
    ∧ State.reset.last = 0 ∧ pos (restart (inSmp 3 5 [])) = (.act, 0, 0, 0, 0)
    ∧ (restart { inSmp 3 5 [] with snap := [(32, 1#8)] }).snap = [] := by
  refine ⟨?_, ?_, ?_, ?_, ?_, ?_⟩ <;> rfl

/-! ## Witnesses: states that meet the hypotheses of the statements, each clause at the boundaries of its range -/

/-- The witnesses of the invariants R42: every phase, both levels, a frame half sent, IDLE at its clock's lower bound. -/
theorem witness_Inv : Inv (inFrame .act 3 0) ∧ Inv (inFrame .act 3 10) ∧ Inv (inFrame .act 3 24) ∧ Inv (inFrame .dea 0 25)
    ∧ Inv (inStl 3 2) ∧ Inv (inStl 3 1) ∧ Inv (inSmp 3 5 []) ∧ Inv (inSmp 7 8 []) ∧ Inv (inIdle 1000 1000)
    ∧ Inv (atL1 base) ∧ Inv (atL1 (inIdle 1000 0)) := by
  refine ⟨?_, ?_, ?_, ?_, ?_, ?_, ?_, ?_, ?_, ?_, ?_⟩ <;> constructor <;> decide

/-- Witnesses of what the column lines hold: Settle, Sample, IDLE, and a frame whose first three bits are sent. -/
theorem witness_DriveInv : DriveInv (inStl 3 2) ∧ DriveInv (inSmp 3 5 []) ∧ DriveInv (inIdle 1000 0)
    ∧ DriveInv { inFrame .act 3 11 with ser := true, sh := 0x00#8 } := by
  refine ⟨?_, ?_, ?_, ?_⟩ <;> constructor <;> decide

/-- A table that is the trace's: entry (3, 5) sampled true. -/
theorem witness_TableIsTrace :
    TableIsTrace { inSmp 3 6 [] with snap := [(32, 1#8)], trace := [.smp 3 5 true, .smp 3 4 false] } := by
  constructor <;> decide

theorem witness_EncodeOfDecodeIsTheWord : decode (.pe 0b101#3) = .ok .lat1 ∧ decode (.f8 0x80#8) = .ok .act7
    ∧ decode (.seq 0x1F8#10) = .ok (.smp 7 8) := by decide

theorem witness_Lat0OpensTheFrame : ((inFrame .act 7 0).ph = .act ∧ (inFrame .act 7 0).dpos = 0)
    ∧ (inFrame .dea 0 0).ph = .dea ∧ (inFrame .dea 0 0).dpos = 0 := by decide

/-- Slots 0 and 7 in ACT, each bit, and slot 7 in DEA. -/
theorem witness_SerWritesTheSlotsBit :
    ((inFrame .act 0 1).dpos.val = 1 + 3 * (0 : Fin 8).val ∧ (inFrame .act 0 1).ph = .act
      ∧ true = decide ((0 : Fin 8) = (inFrame .act 0 1).col))
    ∧ ((inFrame .act 0 22).dpos.val = 1 + 3 * (7 : Fin 8).val ∧ (inFrame .act 0 22).ph = .act
      ∧ false = decide ((7 : Fin 8) = (inFrame .act 0 22).col))
    ∧ (inFrame .dea 0 22).dpos.val = 1 + 3 * (7 : Fin 8).val ∧ (inFrame .dea 0 22).ph = .dea := by decide

theorem witness_Sck1ShiftsSerIntoSh :
    ((inFrame .act 7 2).ph = .act ∧ (inFrame .act 7 2).dpos.val % 3 = 2 ∧ (inFrame .act 7 2).sck = false)
    ∧ (inFrame .dea 0 23).ph = .dea ∧ (inFrame .dea 0 23).dpos.val % 3 = 2 ∧ (inFrame .dea 0 23).sck = false := by decide

theorem witness_Sck0LowersTheClock :
    ((inFrame .act 7 3).ph = .act ∧ (inFrame .act 7 3).dpos.val % 3 = 0 ∧ 3 ≤ (inFrame .act 7 3).dpos.val)
    ∧ (inFrame .dea 0 24).ph = .dea ∧ (inFrame .dea 0 24).dpos.val % 3 = 0 ∧ 3 ≤ (inFrame .dea 0 24).dpos.val := by decide

theorem witness_Lat1CommitsAndEndsTheFrame :
    ((inFrame .act 7 25).dpos = 25 ∧ (inFrame .act 7 25).lat = false ∧ (inFrame .act 7 25).ph = .act)
    ∧ (inFrame .dea 0 25).dpos = 25 ∧ (inFrame .dea 0 25).lat = false ∧ (inFrame .dea 0 25).ph = .dea := by decide

/-- The second clause: TICK, SMP and YIELD answer a next state. -/
theorem witness_DeviceReactsToTwoEdgesOnly : (∃ t, exec (.tick 3) (inStl 3 2) = .next t)
    ∧ (∃ t, exec (.smp 3 5) (inSmp 3 5 []) = .next t) ∧ ∃ t, exec .yield (inIdle 1000 0) = .next t :=
  ⟨⟨_, rfl⟩, ⟨_, rfl⟩, ⟨_, rfl⟩⟩

theorem witness_ActFrameDrivesOneColumn :
    ((inFrame .act 0 0).ph = .act ∧ (inFrame .act 0 0).col = 0 ∧ (inFrame .act 0 0).sck = false)
    ∧ (inFrame .act 7 0).ph = .act ∧ (inFrame .act 7 0).col = 7 ∧ (inFrame .act 7 0).sck = false := by decide

theorem witness_ClrDropsEveryColumn : (inFrame .dea 0 0).ph = .dea ∧ (inFrame .dea 0 0).sck = false := by decide

/-- Another column's ACT, ACT in Sample, CLR in IDLE. -/
theorem witness_FramesAwayFromTheirPlace :
    (¬((inFrame .act 3 0).ph = .act ∧ (inFrame .act 3 0).col = 4) ∧ (inFrame .act 3 0).sck = false)
    ∧ (¬((inSmp 3 0 []).ph = .act ∧ (inSmp 3 0 []).col = 3) ∧ (inSmp 3 0 []).sck = false)
    ∧ (inIdle 0 0).ph ≠ .dea ∧ (inIdle 0 0).sck = false := by decide

theorem witness_TransmitCommitsAnyByte : { base with ser := true, lat := false, sh := 0x5A#8, q := 0xC3#8 }.sck = false := by
  decide

theorem witness_RepeatedFrameChangesNothing : base.sck = false ∧ (inFrame .act 7 25).sck = false
    ∧ (inSmp 3 5 []).ph = .smp ∧ (inSmp 3 5 []).par.settleTicks ≤ (inSmp 3 5 []).since
    ∧ (inSmp 3 5 []).par.settleTicks ≤ 2 ∧ (inSmp 3 5 []).par.stuck.get 5 = .none
    ∧ (∀ c r', closed (inSmp 3 5 []).inp.keys c r' = false) ∧ ∃ t, exec .clr (inSmp 3 5 []) = .next t :=
  ⟨by decide, by decide, by decide, by decide, by decide, by decide, by decide, ⟨_, rfl⟩⟩

theorem witness_DriverPhasesAtL1 :
    ((atL1 base).level = .l1 ∧ (atL1 base).sck = false ∧ (atL1 base).ph = .act)
    ∧ (atL1 (inFrame .dea 0 0)).level = .l1 ∧ (atL1 (inFrame .dea 0 0)).sck = false ∧ (atL1 (inFrame .dea 0 0)).ph = .dea := by
  decide

/-- DPOS 24 and 25 of both frames. -/
theorem witness_DriverPhasesAtL0 :
    ((inFrame .act 3 24).level = .l0 ∧ (inFrame .act 3 24).ph = .act
      ∧ (frameEvents (1#8 <<< (inFrame .act 3 24).col.val))[(inFrame .act 3 24).dpos.val]? = some ⟨.sck, false⟩)
    ∧ ((inFrame .act 3 25).level = .l0 ∧ (inFrame .act 3 25).ph = .act
      ∧ (frameEvents (1#8 <<< (inFrame .act 3 25).col.val))[(inFrame .act 3 25).dpos.val]? = some ⟨.lat, true⟩)
    ∧ ((inFrame .dea 0 24).level = .l0 ∧ (inFrame .dea 0 24).ph = .dea
      ∧ (frameEvents 0#8)[(inFrame .dea 0 24).dpos.val]? = some ⟨.sck, false⟩)
    ∧ (inFrame .dea 0 25).level = .l0 ∧ (inFrame .dea 0 25).ph = .dea
      ∧ (frameEvents 0#8)[(inFrame .dea 0 25).dpos.val]? = some ⟨.lat, true⟩ := by
  refine ⟨?_, ?_, ?_, ?_⟩ <;> decide

theorem witness_TickCountsSettleDown :
    ((inStl 3 2).ph = .stl ∧ (inStl 3 2).level = .l0 ∧ 1 < (inStl 3 2).stl)
    ∧ ((inStl 3 1).ph = .stl ∧ (inStl 3 1).level = .l0 ∧ (inStl 3 1).stl = 1)
    ∧ (atL1 (inStl 3 2)).ph = .stl ∧ (atL1 (inStl 3 2)).level = .l1 := by decide

/-- Row 7; row 8 of column 6; row 8 of column 7. -/
theorem witness_SampleWritesAndAdvances :
    ((inSmp 7 7 []).ph = .smp ∧ (inSmp 7 7 []).row.val < 8)
    ∧ ((inSmp 6 8 []).ph = .smp ∧ (inSmp 6 8 []).row.val = 8 ∧ (inSmp 6 8 []).col.val < 7)
    ∧ (inSmp 7 8 []).ph = .smp ∧ (inSmp 7 8 []).row.val = 8 ∧ (inSmp 7 8 []).col.val = 7 := by decide

/-- The inner hypotheses: another entry of the same column, and another address. -/
theorem witness_SampleWritesOneEntry : ¬((3 : Col) = 3 ∧ (6 : Row) = 5) ∧ 33 ≠ 9 * (3 : Col).val + (5 : Row).val := by decide

theorem witness_StuckRowReadsItsLevel :
    (stuckAt 8 .high base).par.stuck.get 8 = .high ∧ (stuckAt 0 .low base).par.stuck.get 0 = .low
    ∧ ∃ t, step (stuckAt 8 .high (inSmp 3 8 [])) = .next t :=
  ⟨by decide, by decide, ⟨_, rfl⟩⟩

/-- Outside SMP; and in SMP one step short of the delay. -/
theorem witness_UnsettledReadIsADraw : (inStl 3 1).par.stuck.get 5 = .none ∧ (inStl 3 1).ph ≠ .smp
    ∧ { inSmp 3 5 [] with since := 1 }.par.stuck.get 5 = .none
    ∧ { inSmp 3 5 [] with since := 1 }.since < { inSmp 3 5 [] with since := 1 }.par.settleTicks := by decide

/-- One column high, none high. -/
theorem witness_IsolatedRowIsTheOrOfItsColumns :
    ((inSmp 3 5 [(3, 5)]).ph = .smp ∧ (inSmp 3 5 [(3, 5)]).par.settleTicks ≤ (inSmp 3 5 [(3, 5)]).since
      ∧ (inSmp 3 5 [(3, 5)]).par.stuck.get 5 = .none
      ∧ (inSmp 3 5 [(3, 5)]).par.matrixKind = .isolated ∧ (inSmp 3 5 [(3, 5)]).q = 1#8 <<< (3 : Col).val)
    ∧ { inSmp 3 5 [(3, 5)] with q := 0#8 }.ph = .smp ∧ { inSmp 3 5 [(3, 5)] with q := 0#8 }.q = 0#8 := by decide

/-- No contact closed: nothing is reachable. -/
theorem no_path_open (q : Byte) (r : Row) : ¬Path q (keysOf []) (.row r) := by
  have hk : ∀ c r, closed (keysOf []) c r = false := by decide
  intro h
  cases h with
  | toRow c r _ hc => rw [hk] at hc; cases hc

/-- V-S8: row 0 is reachable from column 1 through row 1 and column 0. -/
theorem path_ghost : Path 0x02#8 (keysOf [(0, 0), (0, 1), (1, 1)]) (.row 0) :=
  .toRow 0 0 (.toCol 0 1 (.toRow 1 1 (.high 1 (by decide)) (by decide)) (by decide)) (by decide)

/-- The three cases: unreachable; the one closed contact; a ghost. -/
theorem witness_UnisolatedRowIsForcedOrDrawn :
    ((unisolated (inSmp 3 5 [])).ph = .smp ∧ (unisolated (inSmp 3 5 [])).par.settleTicks ≤ (unisolated (inSmp 3 5 [])).since
      ∧ (unisolated (inSmp 3 5 [])).par.stuck.get 5 = .none
      ∧ (unisolated (inSmp 3 5 [])).par.matrixKind = .unisolated
      ∧ ¬Path (unisolated (inSmp 3 5 [])).q (unisolated (inSmp 3 5 [])).inp.keys (.row 5))
    ∧ (∃ c' : Col, (unisolated (inSmp 3 5 [(3, 5)])).q.getLsbD c'.val = true
      ∧ closed (unisolated (inSmp 3 5 [(3, 5)])).inp.keys c' 5 = true
      ∧ ∀ c'' r'', closed (unisolated (inSmp 3 5 [(3, 5)])).inp.keys c'' r'' = true → c'' = c' ∧ r'' = 5)
    ∧ (Path (unisolated (inSmp 1 0 [(0, 0), (0, 1), (1, 1)])).q
        (unisolated (inSmp 1 0 [(0, 0), (0, 1), (1, 1)])).inp.keys (.row 0)
      ∧ ¬∃ c' : Col, (unisolated (inSmp 1 0 [(0, 0), (0, 1), (1, 1)])).q.getLsbD c'.val = true
        ∧ closed (unisolated (inSmp 1 0 [(0, 0), (0, 1), (1, 1)])).inp.keys c' 0 = true
        ∧ ∀ c'' r'', closed (unisolated (inSmp 1 0 [(0, 0), (0, 1), (1, 1)])).inp.keys c'' r'' = true → c'' = c' ∧ r'' = 0) :=
  ⟨⟨rfl, by decide, by decide, rfl, no_path_open _ _⟩, ⟨3, by decide⟩, path_ghost, by decide⟩

/-- NOW - LAST = 999 and 1000. -/
theorem witness_YieldRunsTheReportersGate :
    ((inIdle 4499 3500).ph = .idle ∧ (inIdle 4499 3500).last ≤ (inIdle 4499 3500).inp.now
      ∧ (inIdle 4499 3500).inp.now - (inIdle 4499 3500).last < 1000)
    ∧ ((inIdle 4500 3500).ph = .idle ∧ (inIdle 4500 3500).last ≤ (inIdle 4500 3500).inp.now
      ∧ 1000 ≤ (inIdle 4500 3500).inp.now - (inIdle 4500 3500).last)
    ∧ ∃ t, step (inIdle 4500 3500) = .next t :=
  ⟨by decide, by decide, ⟨_, rfl⟩⟩

/-- A clock one below LAST; NOW - LAST = 1000 and 999 in Sample. -/
theorem witness_YieldAwayFromIdle : (inIdle 3499 3500).inp.now < (inIdle 3499 3500).last
    ∧ ({ inIdle 4500 3500 with ph := .smp }.ph ≠ .idle ∧ { inIdle 4500 3500 with ph := .smp }.last ≤ 4500
      ∧ 1000 ≤ { inIdle 4500 3500 with ph := .smp }.inp.now - { inIdle 4500 3500 with ph := .smp }.last)
    ∧ { inIdle 4499 3500 with ph := .smp }.inp.now - { inIdle 4499 3500 with ph := .smp }.last < 1000 := by decide

/-- The two refusals, and YIELD in Sample with the gate shut. -/
theorem test_yield_elsewhere : refusal (exec .yield (inIdle 3499 3500)) = some .clockWentBack
    ∧ refusal (exec .yield { inIdle 4500 3500 with ph := .smp }) = some .reporterOutsideIdle
    ∧ look (exec .yield { inIdle 4499 3500 with ph := .smp }) pos = some (.smp, 0, 0, 0, 0) := by decide

/-- Indices 7 and 8 in range; 8 and 9 out of range; a phase that is not IDLE. -/
theorem witness_ReporterReadsOnlyInIdle : (inIdle 0 0).ph = .idle ∧ (7 < 8 ∧ 8 < 9) ∧ 8 ≤ 8 ∧ 9 ≤ 9 ∧ (inSmp 3 5 []).ph ≠ .idle := by
  decide

/-- A pin event that is not due, and one while no frame is due; ACT 4 in column 3; CLR in ACT; TICK 4 and SMP 3 6 elsewhere. -/
theorem witness_OperationsAwayFromTheirPlaceLeaveThePosition :
    (∀ p, framePattern (inFrame .act 3 1) = some p → (frameEvents p)[(inFrame .act 3 1).dpos.val]? ≠ some ⟨.lat, true⟩)
    ∧ (∀ p, framePattern (inIdle 0 0) = some p → (frameEvents p)[(inIdle 0 0).dpos.val]? ≠ some ⟨.lat, true⟩)
    ∧ ¬((inFrame .act 3 1).ph = .act ∧ (inFrame .act 3 1).col = 4) ∧ (inFrame .act 3 1).ph ≠ .dea
    ∧ ¬((inStl 3 1).ph = .stl ∧ (inStl 3 1).col = 4)
    ∧ ¬((inSmp 3 5 []).ph = .smp ∧ (inSmp 3 5 []).col = 3 ∧ (inSmp 3 5 []).row = 6) := by
  refine ⟨?_, ?_, ?_, ?_, ?_, ?_⟩ <;> decide

theorem witness_TableWriteIsIdempotentAndLocal : ¬((3 : Col) = 3 ∧ (6 : Row) = 5)
    ∧ { base with snap := [(32, 1#8), (71, 1#8)] }.snap.wf := by decide

/-- A step outside Sample, and one that changes an entry. -/
theorem witness_OnlySampleWritesTheTable :
    ((∃ t, step (inStl 3 2) = .next t) ∧ (inStl 3 2).ph ≠ .smp)
    ∧ ∃ t, step (inSmp 3 5 [(3, 5)]) = .next t ∧ tblRead 3 5 t ≠ tblRead 3 5 (inSmp 3 5 [(3, 5)]) :=
  ⟨⟨⟨_, rfl⟩, by decide⟩, ⟨_, rfl, by decide⟩⟩

/-- The five sequencer words. -/
theorem witness_StepRunsTheDecodedOperation :
    decode (.seq (seqWord (inIdle 0 0))) = .ok .yield ∧ decode (.seq (seqWord (inFrame .act 7 10))) = .ok (.actC 7)
    ∧ decode (.seq (seqWord (inStl 3 2))) = .ok (.tick 3) ∧ decode (.seq (seqWord (inSmp 7 8 []))) = .ok (.smp 7 8)
    ∧ decode (.seq (seqWord (inFrame .dea 0 25))) = .ok .dea := by decide

theorem witness_StepRunsThePinEvent :
    ((inFrame .act 3 0).level = .l0 ∧ (inFrame .act 3 0).row = 0 ∧ (inFrame .act 3 0).ph = .act
      ∧ (frameEvents (1#8 <<< (inFrame .act 3 0).col.val))[(inFrame .act 3 0).dpos.val]? = some ⟨.lat, false⟩)
    ∧ (inFrame .dea 0 25).level = .l0 ∧ (inFrame .dea 0 25).row = 0 ∧ (inFrame .dea 0 25).ph = .dea
      ∧ (inFrame .dea 0 25).col = 0 ∧ (frameEvents 0#8)[(inFrame .dea 0 25).dpos.val]? = some ⟨.lat, true⟩ := by
  refine ⟨?_, ?_⟩ <;> decide

theorem witness_StepRunsTheFrame :
    ((atL1 (inFrame .act 7 0)).level = .l1 ∧ (atL1 (inFrame .act 7 0)).row = 0 ∧ (atL1 (inFrame .act 7 0)).ph = .act)
    ∧ (atL1 (inFrame .dea 0 0)).level = .l1 ∧ (atL1 (inFrame .dea 0 0)).row = 0 ∧ (atL1 (inFrame .dea 0 0)).ph = .dea
      ∧ (atL1 (inFrame .dea 0 0)).col = 0 := by decide

/-- A step from a state with the invariants, for each phase. -/
theorem witness_StepKeepsTheStateInvariants :
    (Inv (inFrame .act 3 10) ∧ ∃ t, step (inFrame .act 3 10) = .next t) ∧ (Inv (inStl 3 1) ∧ ∃ t, step (inStl 3 1) = .next t)
    ∧ (Inv (inSmp 7 8 []) ∧ ∃ t, step (inSmp 7 8 []) = .next t)
    ∧ (Inv (inFrame .dea 0 25) ∧ ∃ t, step (inFrame .dea 0 25) = .next t)
    ∧ Inv (inIdle 1000 1000) ∧ ∃ t, step (inIdle 1000 1000) = .next t :=
  ⟨⟨witness_Inv.2.1, _, rfl⟩, ⟨witness_Inv.2.2.2.2.2.1, _, rfl⟩, ⟨witness_Inv.2.2.2.2.2.2.2.1, _, rfl⟩,
    ⟨witness_Inv.2.2.2.1, _, rfl⟩, witness_Inv.2.2.2.2.2.2.2.2.1, _, rfl⟩

theorem witness_StepKeepsTheColumnLines :
    Inv (inStl 3 2) ∧ DriveInv (inStl 3 2) ∧ ∃ t, step (inStl 3 2) = .next t :=
  ⟨witness_Inv.2.2.2.2.1, witness_DriveInv.1, _, rfl⟩

theorem witness_StepKeepsTheTableEqualToTheLastSamples : ∃ t,
    step { inSmp 3 6 [] with snap := [(32, 1#8)], trace := [.smp 3 5 true, .smp 3 4 false] } = .next t := ⟨_, rfl⟩

theorem witness_ReachableStatesAlwaysStep : Inv (inIdle 1000 1000) ∧ Inv (inFrame .dea 0 25) ∧ Inv (atL1 base) :=
  ⟨witness_Inv.2.2.2.2.2.2.2.2.1, witness_Inv.2.2.2.1, witness_Inv.2.2.2.2.2.2.2.2.2.1⟩

theorem witness_SampleSeesItsOwnColumn :
    Inv (inSmp 3 5 []) ∧ DriveInv (inSmp 3 5 []) ∧ (inSmp 3 5 []).ph = .smp
    ∧ (inSmp 3 5 []).par.matrixKind = .isolated ∧ (inSmp 3 5 []).par.stuck.get (inSmp 3 5 []).row = .none :=
  ⟨witness_Inv.2.2.2.2.2.2.1, witness_DriveInv.2.1, rfl, rfl, by decide⟩

/-- The commit of ACT 3's frame: Q goes from CPAT[2] to CPAT[3]. -/
theorem witness_CommittedBytesHaveAtMostOneBit : Inv { inFrame .act 3 25 with sh := 0x08#8 }
    ∧ DriveInv { inFrame .act 3 25 with sh := 0x08#8 } ∧ ∃ t, step { inFrame .act 3 25 with sh := 0x08#8 } = .next t := by
  refine ⟨?_, ?_, _, rfl⟩ <;> constructor <;> decide

/-- Steps in STL, in SMP, in IDLE and in ACT at L0 with DPOS other than 25: each clause's phases occur. -/
theorem witness_EachElementHasOneWriter :
    (∃ t, step (inStl 3 2) = .next t) ∧ (inStl 3 2).ph = .stl ∧ (∃ t, step (inSmp 3 5 []) = .next t)
    ∧ (inSmp 3 5 []).ph = .smp ∧ (∃ t, step (inIdle 1000 0) = .next t) ∧ (inIdle 1000 0).ph = .idle
    ∧ (∃ t, step (inFrame .act 3 24) = .next t) ∧ (inFrame .act 3 24).level = .l0 ∧ (inFrame .act 3 24).ph = .act
    ∧ (inFrame .act 3 24).dpos.val ≠ 25 :=
  ⟨⟨_, rfl⟩, rfl, ⟨_, rfl⟩, rfl, ⟨_, rfl⟩, rfl, ⟨_, rfl⟩, rfl, rfl, by decide⟩

theorem witness_ScannerNeverReadsTheTable : (∃ t, step (inSmp 3 5 []) = .next t) ∧ ∃ t, step (inIdle 1000 0) = .next t :=
  ⟨⟨_, rfl⟩, ⟨_, rfl⟩⟩

theorem witness_InputsAreReadOnlyInTheirPhase :
    (inStl 3 2).ph ≠ .smp ∧ ((inSmp 3 5 []).ph = .smp ∧ (inSmp 3 5 []).par.settleTicks ≤ (inSmp 3 5 []).since
      ∧ (inSmp 3 5 []).par.stuck.get (inSmp 3 5 []).row = .none
      ∧ (inSmp 3 5 []).par.matrixKind = .isolated ∧ (inSmp 3 5 []).q = 1#8 <<< (inSmp 3 5 []).col.val)
    ∧ (inSmp 3 5 []).ph ≠ .idle ∧ ∃ t, step (inSmp 3 5 []) = .next t :=
  ⟨by decide, by decide, by decide, ⟨_, rfl⟩⟩

/-- Also of the runs' other statements at L0: the start of ACT 0, of another column, and of DEA. -/
theorem witness_TwentySixPinEventsAreOneFrame :
    (Inv base ∧ base.level = .l0 ∧ base.dpos = 0 ∧ base.ph = .act ∧ base.col = 0)
    ∧ (Inv (inFrame .act 7 0) ∧ (inFrame .act 7 0).level = .l0 ∧ (inFrame .act 7 0).dpos = 0 ∧ (inFrame .act 7 0).ph = .act
      ∧ (inFrame .act 7 0).col.val = 7)
    ∧ Inv (inFrame .dea 0 0) ∧ (inFrame .dea 0 0).level = .l0 ∧ (inFrame .dea 0 0).dpos = 0 ∧ (inFrame .dea 0 0).ph = .dea := by
  refine ⟨⟨?_, by decide⟩, ⟨?_, by decide⟩, ?_, by decide⟩ <;> constructor <;> decide

theorem witness_SettleTakesExactlyItsTicks :
    (Inv (inStl 3 2) ∧ (inStl 3 2).level = .l0 ∧ (inStl 3 2).ph = .stl ∧ 0 < (inStl 3 2).stl ∧ 1 < (inStl 3 2).stl)
    ∧ Inv (inStl 3 1) ∧ (inStl 3 1).level = .l0 ∧ (inStl 3 1).ph = .stl :=
  ⟨⟨witness_Inv.2.2.2.2.1, by decide⟩, witness_Inv.2.2.2.2.2.1, by decide⟩

theorem witness_FirstFrameForgetsTheResetDraws :
    Inv base ∧ base.level = .l0 ∧ base.ph = .act ∧ base.dpos = 0 :=
  ⟨witness_TwentySixPinEventsAreOneFrame.1.1, by decide⟩

/-- Columns 0 and 7, from where the two outcomes of a column differ. -/
theorem witness_StepCountsAtL0 :
    (Inv base ∧ base.level = .l0 ∧ base.ph = .act ∧ base.dpos = 0 ∧ base.col = 0 ∧ base.col.val < 7)
    ∧ Inv (inFrame .act 7 0) ∧ (inFrame .act 7 0).level = .l0 ∧ (inFrame .act 7 0).ph = .act
      ∧ (inFrame .act 7 0).dpos = 0 ∧ (inFrame .act 7 0).col.val = 7 :=
  ⟨⟨witness_TwentySixPinEventsAreOneFrame.1.1, by decide⟩, witness_TwentySixPinEventsAreOneFrame.2.1.1, by decide⟩

theorem witness_StepCountsAtL1 :
    (Inv (atL1 base) ∧ (atL1 base).level = .l1 ∧ (atL1 base).ph = .act ∧ (atL1 base).col = 0 ∧ (atL1 base).col.val < 7)
    ∧ Inv (atL1 (inFrame .act 7 0)) ∧ (atL1 (inFrame .act 7 0)).level = .l1 ∧ (atL1 (inFrame .act 7 0)).ph = .act
      ∧ (atL1 (inFrame .act 7 0)).col.val = 7 := by
  refine ⟨⟨?_, by decide⟩, ?_, by decide⟩ <;> constructor <;> decide

theorem witness_SweepSamplesEveryKeyAtItsStep :
    Inv base ∧ base.level = .l0 ∧ base.ph = .act ∧ base.col = 0 ∧ base.dpos = 0 :=
  ⟨witness_TwentySixPinEventsAreOneFrame.1.1, by decide⟩

theorem witness_SweepTraceIsFixed : Inv base ∧ base.level = .l0 ∧ base.ph = .act ∧ base.col = 0 ∧ base.dpos = 0 :=
  witness_SweepSamplesEveryKeyAtItsStep

theorem witness_RestartDiscardsTheRun :
    Inv (inSmp 3 5 []) ∧ { inSmp 3 5 [] with snap := [(32, 1#8)], q := 0#8 }.tick = (inSmp 3 5 []).tick
    ∧ { inSmp 3 5 [] with snap := [(32, 1#8)], q := 0#8 }.par = (inSmp 3 5 []).par
    ∧ { inSmp 3 5 [] with snap := [(32, 1#8)], q := 0#8 }.level = (inSmp 3 5 []).level :=
  ⟨witness_Inv.2.2.2.2.2.2.1, rfl, rfl, rfl⟩

theorem witness_LaunchChecksTheBootRequirements :
    { base with sck := true }.sck = true ∧ { base with snap := [(71, 1#8)] }.snap ≠ [] ∧ { base with last := 1 }.last ≠ 0 := by
  decide

end Sys2Proof.Tests
end

section
/-! What a step does, by the rows of R181: one inductive of six effects, from which the obligations below are assembled by one
named case split each. -/

namespace Sys2Proof.Machine

/-! ### The effects of a step (R181) -/

/-- The state `u` that the operation at the position of `s` answers, before what every step adds. The two driver phases are
one case each at L0 and L1: they differ in the pattern only (R182, R186). -/
inductive StepEffect (s : State) : State → Prop where
  /-- `YIELD` (T10). -/
  | yield (hp : s.ph = .idle) (hr : s.row = 0) (hclock : s.last ≤ s.inp.now) :
      StepEffect s { passed (reporterGate s) with ph := .act, col := 0, row := 0, dpos := 0, stl := 0 }
  /-- The pin event due in ACT or DEA at L0 (T1, T2, T8, T9). -/
  | pin (p : Byte) (hf : framePattern s = some p) (hl : s.level = .l0) :
      StepEffect s (frameAdvance (pinWrite (eventAt p s.dpos) s))
  /-- The whole frame of ACT or DEA at L1 (T1+T2, T8+T9). -/
  | frame (p : Byte) (hf : framePattern s = some p) (hl : s.level = .l1) : StepEffect s (frameDone (transmit p s))
  /-- One tick of Settle at L0 (T3, T4). -/
  | tick (hp : s.ph = .stl) (hr : s.row = 0) (hl : s.level = .l0) : StepEffect s (settleTick s)
  /-- The whole of Settle at L1 (T3+T4). -/
  | settle (hp : s.ph = .stl) (hr : s.row = 0) (hl : s.level = .l1) : StepEffect s (settleDone s)
  /-- `SMP` (T5, T6, T7). -/
  | sample (hp : s.ph = .smp) : StepEffect s (sampleAdvance (passed (wr s.col s.row (pinRead s.row s) s)))

/-- A step that answers has one of the effects and adds what every step adds. -/
theorem step_effect {s t : State} (h : step s = .next t) : ∃ u, StepEffect s u ∧ t = endStep s u := by
  have driver : ∀ (p : Byte) (u : State), framePattern s = some p →
      u = (match s.level with
        | .l0 => frameAdvance (pinWrite (eventAt p s.dpos) s)
        | .l1 => frameDone (transmit p s)) → StepEffect s u := by
    rintro p u hf rfl
    cases hl : s.level with
    | l0 => exact .pin p hf hl
    | l1 => exact .frame p hf hl
  obtain ⟨u, rfl, hu⟩ := step_cases h
  refine ⟨u, ?_, rfl⟩
  rcases hu with ⟨hp, -, hr, hclock, rfl⟩ | ⟨hp, -, hu⟩ | ⟨hp, hr, rfl⟩ | ⟨hp, rfl⟩ | ⟨hp, -, -, hu⟩
  · exact .yield hp hr hclock
  · exact driver _ u (framePattern_eq_cpat.mpr ⟨hp, rfl⟩) hu
  · cases hl : s.level with
    | l0 => exact .tick hp hr hl
    | l1 => exact .settle hp hr hl
  · exact .sample hp
  · exact driver _ u (framePattern_eq_clear.mpr hp) hu

/-- The scanner sends a frame in ACT and DEA only (R120). -/
theorem driverPhase_of_framePattern {s : State} {p : Byte} (h : framePattern s = some p) : s.ph = .act ∨ s.ph = .dea := by
  cases hp : s.ph <;> simp [framePattern, hp] at h ⊢

/-! ### The lines after one event of a frame (R121, R134) -/

/-- A pin event writes the lines, the device and the count alone. -/
theorem pinWrite_eq_lines (e : PinEvent) (s : State) :
    pinWrite e s = { s with
      ser := (pinWrite e s).ser, sck := (pinWrite e s).sck, lat := (pinWrite e s).lat, sh := (pinWrite e s).sh,
      q := (pinWrite e s).q, since := (pinWrite e s).since } := by
  unfold pinWrite; split <;> rfl

theorem eventAt_zero {p : Byte} {d : FramePos} (h : d.val = 0) : eventAt p d = ⟨.lat, false⟩ := by simp [eventAt, h]

theorem eventAt_last {p : Byte} {d : FramePos} (h : d.val = 25) : eventAt p d = ⟨.lat, true⟩ := by simp [eventAt, h]

/-- Inside a frame LAT is not written, and SCK is high exactly after the events of residue 2. -/
theorem lines_of_eventAt_inside {p : Byte} {d : FramePos} {s : State} (h0 : d.val ≠ 0) (h25 : d.val ≠ 25) :
    (pinWrite (eventAt p d) s).lat = s.lat
      ∧ (pinWrite (eventAt p d) s).sck = (if d.val % 3 = 1 then s.sck else decide (d.val % 3 = 2)) := by
  simp only [eventAt, h0, h25, if_false]
  split
  · exact ⟨rfl, rfl⟩
  · split <;> simp [pinWrite, *]

/-- No event before the last commits (R129 (a)). -/
theorem q_of_eventAt {p : Byte} {d : FramePos} {s : State} (h25 : d.val ≠ 25) : (pinWrite (eventAt p d) s).q = s.q := by
  by_cases h0 : d.val = 0
  · rw [eventAt_zero h0, pinWrite_lat0]
  · simp only [eventAt, h0, h25, if_false]
    split
    · rfl
    · split <;> rfl

end Sys2Proof.Machine
end

section
/-! O40: each effect of a step keeps the invariants of the state (R42). Every lemma names the fields of `Inv` that its effect
can break; `{ h with … }` keeps the others. -/

namespace Sys2Proof.Machine

/-! ### What the invariants say by phase -/

/-- No frame is under way outside the driver phases. -/
theorem inv_dpos_zero {s : State} (h : Inv s) (ha : s.ph ≠ .act) (hd : s.ph ≠ .dea) : s.dpos = 0 :=
  of_not_not fun hne => (h.dpos_phase hne).elim ha hd

theorem inv_stl_zero {s : State} (h : Inv s) (hp : s.ph ≠ .stl) : s.stl = 0 := of_not_not fun hne => hp (h.stl_phase hne)

theorem inv_row_zero {s : State} (h : Inv s) (hp : s.ph ≠ .smp) : s.row = 0 := of_not_not fun hne => hp (h.row_phase hne)

/-- The clock idles low at every position but those of an SCK0 (R42). -/
theorem inv_sck_low {s : State} (h : Inv s) (hd : s.dpos.val = 0 ∨ s.dpos.val = 25 ∨ s.dpos.val % 3 ≠ 0) : s.sck = false :=
  Bool.eq_false_iff.mpr fun hs => by have := h.sck_low hs; omega

/-! ### What keeps them -/

/-- What every step adds keeps the invariants: NOW only grows. -/
theorem inv_endStep {u : State} (h : Inv u) (s : State) : Inv (endStep s u) :=
  { h with clock := h.clock.trans (Nat.le_add_right _ _) }

/-- Letting a step pass only lengthens the delay. -/
theorem inv_passed {s : State} (h : Inv s) : Inv (passed s) :=
  { h with
    settling := fun hp => (h.settling hp).trans (Nat.add_le_add_right (Nat.le_succ _) _)
    delayed := fun hp => (h.delayed hp).trans (Nat.le_succ _) }

theorem inv_wr {s : State} (h : Inv s) (c : Col) (r : Row) (v : Bool) : Inv (wr c r v s) :=
  { h with table := tblWrite_wf c r v s h.table }

/-- The gate sets LAST to NOW or leaves it. -/
theorem inv_reporterGate {s : State} (h : Inv s) : Inv (reporterGate s) := by
  unfold reporterGate
  split
  · exact { h with clock := Nat.le_refl s.inp.now }
  · exact h

/-- From IDLE to the start of a sweep (T10). -/
theorem inv_sweepStart {s : State} (h : Inv s) (hp : s.ph = .idle) :
    Inv { s with ph := .act, col := 0, row := 0, dpos := 0, stl := 0 } := by
  have hd : s.dpos = 0 := inv_dpos_zero h (by simp [hp]) (by simp [hp])
  exact { h with
    stl_le := Nat.zero_le _
    dpos_phase := fun _ => .inl rfl
    stl_phase := fun hne => absurd rfl hne
    stl_pos := nofun
    row_phase := fun hne => absurd rfl hne
    col_phase := fun _ => .inl rfl
    sck_low := fun hs => absurd (inv_sck_low h (.inl (by simp [hd]))) (by simpa using hs)
    lat_low := fun hpos => absurd hpos (by simp)
    l1_whole := fun _ => rfl
    settling := nofun
    delayed := nofun }

/-- Within a driver phase only the clock, the latch and the level constrain the lines and the position. -/
theorem inv_driverLines {s : State} (h : Inv s) (hp : s.ph = .act ∨ s.ph = .dea) {d : FramePos} {ser sck lat : Bool}
    {sh q : Byte} {n : Nat} (hsck : sck = true → d.val % 3 = 0 ∧ 3 ≤ d.val ∧ d.val ≤ 24) (hlat : lat = false)
    (hl : s.level = .l0) :
    Inv { s with ser := ser, sck := sck, lat := lat, sh := sh, q := q, since := n, dpos := d } :=
  { h with
    dpos_phase := fun _ => hp
    sck_low := hsck
    lat_low := fun _ => hlat
    l1_whole := fun h1 => by simp [hl] at h1
    settling := fun hs : s.ph = .stl => by simp [hs] at hp
    delayed := fun hs : s.ph = .smp => by simp [hs] at hp }

/-- The end of a frame, whatever it left on LAT, SER and the device, so long as the clock is low (T2, T9). -/
theorem inv_frameDone {s : State} (h : Inv s) (hp : s.ph = .act ∨ s.ph = .dea) {ser sck lat : Bool} {sh q : Byte} {n : Nat}
    (hsck : sck = false) :
    Inv (frameDone { s with ser := ser, sck := sck, lat := lat, sh := sh, q := q, since := n }) := by
  subst hsck
  rcases hp with hp | hp
  · rw [frameDone_act (by exact hp)]
    exact { h with
      stl_le := Nat.le_refl _
      dpos_phase := fun hne => absurd rfl hne
      stl_phase := fun _ => rfl
      stl_pos := fun _ => Nat.one_le_iff_ne_zero.mp h.settle_pos
      row_phase := fun hne => absurd (inv_row_zero h (by simp [hp])) hne
      col_phase := fun _ => .inr (.inl rfl)
      sck_low := nofun
      lat_low := fun hpos => absurd hpos (by simp)
      l1_whole := fun _ => rfl
      settling := fun _ => Nat.le_add_left _ _
      delayed := nofun }
  · rw [frameDone_dea (by exact hp)]
    exact { h with
      dpos_phase := fun hne => absurd rfl hne
      stl_phase := fun hne => absurd (inv_stl_zero h (by simp [hp])) hne
      stl_pos := nofun
      row_phase := fun hne => absurd (inv_row_zero h (by simp [hp])) hne
      col_phase := fun hne => by simpa [hp] using h.col_phase hne
      sck_low := nofun
      lat_low := fun hpos => absurd hpos (by simp)
      l1_whole := fun _ => rfl
      settling := nofun
      delayed := nofun }

/-- The clock and the latch after one of the first 25 events meet what R42 asks at the next position. -/
theorem lines_after_eventAt {s : State} (h : Inv s) (p : Byte) (hd : s.dpos.val < 25) :
    ((pinWrite (eventAt p s.dpos) s).sck = true →
        (s.dpos + 1).val % 3 = 0 ∧ 3 ≤ (s.dpos + 1).val ∧ (s.dpos + 1).val ≤ 24)
      ∧ (pinWrite (eventAt p s.dpos) s).lat = false := by
  have hsucc : (s.dpos + 1).val = s.dpos.val + 1 := Fin.val_add_one_of_lt (Fin.lt_def.mpr hd)
  rw [hsucc]
  by_cases h0 : s.dpos.val = 0
  · rw [eventAt_zero h0, pinWrite_lat0]
    exact ⟨fun hs => absurd (inv_sck_low h (.inl h0)) (by simpa using hs), rfl⟩
  · obtain ⟨hlat, hsck⟩ := lines_of_eventAt_inside (p := p) (s := s) h0 hd.ne
    refine ⟨fun hs => ?_, hlat.trans (h.lat_low (by omega))⟩
    rw [hsck] at hs
    split at hs
    · next h1 => exact absurd (inv_sck_low h (by omega)) (by simpa using hs)
    · have h2 : s.dpos.val % 3 = 2 := by simpa using hs
      omega

/-- One pin event of the scanner's frame (T1, T2, T8, T9). -/
theorem inv_pinEvent {s : State} (h : Inv s) {p : Byte} (hp : s.ph = .act ∨ s.ph = .dea) (hl : s.level = .l0) :
    Inv (frameAdvance (pinWrite (eventAt p s.dpos) s)) := by
  by_cases hd : s.dpos.val < 25
  · obtain ⟨hsck, hlat⟩ := lines_after_eventAt h p hd
    rw [frameAdvance_inside (by simpa using hd), pinWrite_dpos, pinWrite_eq_lines]
    exact inv_driverLines h hp hsck hlat hl
  · have h25 : s.dpos.val = 25 := by omega
    rw [frameAdvance_end (by simpa using h25), eventAt_last h25, pinWrite_lat1 (h.lat_low (by omega))]
    exact inv_frameDone h hp (inv_sck_low h (.inr (.inl h25)))

/-- A whole frame at L1 (T1+T2, T8+T9). -/
theorem inv_wholeFrame {s : State} (h : Inv s) {p : Byte} (hp : s.ph = .act ∨ s.ph = .dea) (hl : s.level = .l1) :
    Inv (frameDone (transmit p s)) := by
  rw [transmit_eq p s (inv_sck_low h (.inl (by simp [h.l1_whole hl])))]
  exact inv_frameDone h hp rfl

/-- The end of Settle: the ticks still to take complete the delay (T4, T3+T4). -/
theorem inv_settleDone {s : State} (h : Inv s) (hp : s.ph = .stl) : Inv (settleDone s) :=
  { h with
    stl_le := Nat.zero_le _
    dpos_phase := fun hne => absurd (inv_dpos_zero h (by simp [hp]) (by simp [hp])) hne
    stl_phase := fun hne => absurd rfl hne
    stl_pos := nofun
    row_phase := fun _ => rfl
    col_phase := fun _ => .inr (.inr rfl)
    settling := nofun
    delayed := fun _ => h.settling hp }

/-- One tick of Settle moves one step from STL to the count (T3, T4). -/
theorem inv_settleTick {s : State} (h : Inv s) (hp : s.ph = .stl) : Inv (settleTick s) := by
  by_cases hmore : 1 < s.stl
  · have hdelay := h.settling hp
    rw [settleTick_more hmore]
    exact { h with
      stl_le := (Nat.sub_le _ _).trans h.stl_le
      stl_phase := fun _ => hp
      stl_pos := fun _ => by simp only; omega
      settling := fun _ => by simp only; omega
      delayed := fun hs => by simp [hp] at hs }
  · rw [settleTick_end (Nat.le_of_not_lt hmore)]
    exact inv_settleDone h hp

/-- Leaving Sample with ROW at 0: to the next column's frame, or with COL at 0 to the clear frame (T6, T7). -/
theorem inv_columnDone {s : State} (h : Inv s) (hp : s.ph = .smp) {c : Col} {ph : Phase}
    (hph : ph = .act ∨ ph = .dea ∧ c = 0) : Inv { s with row := 0, col := c, ph := ph } :=
  { h with
    dpos_phase := fun hne => absurd (inv_dpos_zero h (by simp [hp]) (by simp [hp])) hne
    stl_phase := fun hne => absurd (inv_stl_zero h (by simp [hp])) hne
    stl_pos := fun hs : ph = .stl => by simp [hs] at hph
    row_phase := fun hne => absurd rfl hne
    col_phase := fun hne => .inl (hph.resolve_right fun hdea => hne hdea.2)
    settling := fun hs : ph = .stl => by simp [hs] at hph
    delayed := fun hs : ph = .smp => by simp [hs] at hph }

/-- The next row, the next column, or the clear frame (T5, T6, T7). -/
theorem inv_sampleAdvance {s : State} (h : Inv s) (hp : s.ph = .smp) : Inv (sampleAdvance s) := by
  by_cases hrow : s.row.val < 8
  · rw [sampleAdvance_row hrow]
    exact { h with row_phase := fun _ => hp }
  have hrow : s.row.val = 8 := by omega
  by_cases hcol : s.col.val < 7
  · rw [sampleAdvance_column hrow hcol]
    exact inv_columnDone h hp (.inl rfl)
  · rw [sampleAdvance_sweep hrow (by omega)]
    exact inv_columnDone h hp (.inr ⟨rfl, rfl⟩)

/-- Every effect of a step keeps the invariants. -/
theorem inv_effect {s u : State} (h : Inv s) (hu : StepEffect s u) : Inv u := by
  cases hu with
  | yield hp => exact inv_sweepStart (inv_passed (inv_reporterGate h)) (by simpa using hp)
  | pin p hf hl => exact inv_pinEvent h (driverPhase_of_framePattern hf) hl
  | frame p hf hl => exact inv_wholeFrame h (driverPhase_of_framePattern hf) hl
  | tick hp => exact inv_settleTick h hp
  | settle hp => exact inv_settleDone h hp
  | sample hp => exact inv_sampleAdvance (inv_passed (inv_wr h _ _ _)) (by simpa using hp)

/-- Settles O40: each of the six effects keeps `Inv`, and so does what every step adds. -/
theorem stepKeepsTheStateInvariants : Obligations.StepKeepsTheStateInvariants := by
  intro s t h hstep
  obtain ⟨u, hu, rfl⟩ := step_effect hstep
  exact inv_endStep (inv_effect h hu) s

end Sys2Proof.Machine
end

section
/-! O42: only a sample writes the table, and only a sample's event is a sample of the trace (R21). -/

namespace Sys2Proof.Machine

/-- An operation leaves the trace to what every step adds around it. -/
theorem effect_trace {s u : State} (hu : StepEffect s u) : u.trace = s.trace := by
  cases hu <;> simp

/-- Outside SMP the table stays (R211). -/
theorem effect_snap {s u : State} (hu : StepEffect s u) (hp : s.ph ≠ .smp) : u.snap = s.snap := by
  cases hu with
  | sample hs => exact absurd hs hp
  | _ => simp

/-- In SMP the step is the sample of the position's entry (R184). -/
theorem effect_smp {s u : State} (hu : StepEffect s u) (hp : s.ph = .smp) :
    u = sampleAdvance (passed (wr s.col s.row (pinRead s.row s) s)) := by
  cases hu with
  | yield hs => simp [hs] at hp
  | pin p hf => simp [framePattern, hp] at hf
  | frame p hf => simp [framePattern, hp] at hf
  | tick hs => simp [hs] at hp
  | settle hs => simp [hs] at hp
  | sample => rfl

/-- No event of another phase counts as a sample. -/
theorem lastSample_eventOf {s : State} (hp : s.ph ≠ .smp) (es : List Event) (c : Col) (r : Row) :
    lastSample (eventOf s :: es) c r = lastSample es c r := by
  cases hs : s.ph with
  | smp => exact absurd hs hp
  | _ => cases hl : s.level <;> simp [eventOf, hs, hl, lastSample]

/-- In SMP the event is the sample of the position's entry. -/
theorem eventOf_smp {s : State} (hp : s.ph = .smp) : eventOf s = .smp s.col s.row (pinRead s.row s) := by
  cases hl : s.level <;> simp [eventOf, hl, hp]

/-- Settles O42: outside SMP neither the table nor the newest sample of an entry changes; in SMP the entry of the position gets
the value of the event, and every other entry keeps table and sample. -/
theorem stepKeepsTheTableEqualToTheLastSamples : Obligations.StepKeepsTheTableEqualToTheLastSamples := by
  intro s t h hstep
  obtain ⟨u, hu, rfl⟩ := step_effect hstep
  by_cases hp : s.ph = .smp
  · have hsnap : (endStep s u).snap = (tblWrite s.col s.row (pinRead s.row s) s).snap := by simp [effect_smp hu hp]
    refine ⟨fun c r => ?_, hsnap ▸ tblWrite_wf _ _ _ _ h.table⟩
    rw [tblRead_congr hsnap, tblRead_tblWrite, endStep_trace, effect_trace hu, eventOf_smp hp, lastSample, h.entries]
    simp only [eq_comm]
  · have hsnap : (endStep s u).snap = s.snap := (endStep_snap s u).trans (effect_snap hu hp)
    refine ⟨fun c r => ?_, hsnap ▸ h.table⟩
    rw [tblRead_congr hsnap, endStep_trace, effect_trace hu, lastSample_eventOf hp, h.entries]

end Sys2Proof.Machine
end

section
/-! O46: one writer for each element of R20, by phase (R43). -/

namespace Sys2Proof.Machine

/-! ### The position after a frame, a tick and a sample -/

/-- STL is loaded at the end of an ACT frame only (T2). -/
theorem frameDone_stl_dea {s : State} (hp : s.ph = .dea) : (frameDone s).stl = s.stl := by simp [frameDone_dea hp]

theorem frameAdvance_stl_dea {s : State} (hp : s.ph = .dea) : (frameAdvance s).stl = s.stl := by
  unfold frameAdvance
  split
  · rfl
  · exact frameDone_stl_dea hp

/-- A tick sets ROW to 0 or leaves it. -/
theorem settleTick_row {s : State} (hr : s.row = 0) : (settleTick s).row = s.row := by
  unfold settleTick
  split
  · rfl
  · exact hr.symm

/-- The phase changes of T1 to T10: the scanner's only ones. -/
def phaseOrder : List (Phase × Phase) :=
  [(.act, .stl), (.stl, .smp), (.smp, .act), (.smp, .dea), (.dea, .idle), (.idle, .act)]

theorem frameDone_phase {s : State} (hp : s.ph = .act ∨ s.ph = .dea) : (s.ph, (frameDone s).ph) ∈ phaseOrder := by
  rcases hp with hp | hp
  · simp [frameDone_act hp, hp, phaseOrder]
  · simp [frameDone_dea hp, hp, phaseOrder]

theorem frameAdvance_phase {s : State} (hp : s.ph = .act ∨ s.ph = .dea) :
    (frameAdvance s).ph = s.ph ∨ (s.ph, (frameAdvance s).ph) ∈ phaseOrder := by
  unfold frameAdvance
  split
  · exact .inl rfl
  · exact .inr (frameDone_phase hp)

theorem settleTick_phase {s : State} (hp : s.ph = .stl) :
    (settleTick s).ph = s.ph ∨ (s.ph, (settleTick s).ph) ∈ phaseOrder := by
  unfold settleTick
  split
  · exact .inl rfl
  · simp [hp, phaseOrder]

theorem sampleAdvance_phase {s : State} (hp : s.ph = .smp) :
    (sampleAdvance s).ph = s.ph ∨ (s.ph, (sampleAdvance s).ph) ∈ phaseOrder := by
  unfold sampleAdvance
  split
  · exact .inl rfl
  · split <;> simp [hp, phaseOrder]

/-! ### The writers (R43) -/

/-- ROW changes in SMP only: T4 and T10 set it to 0, which it is at their positions already (R99). -/
theorem effect_row {s u : State} (hu : StepEffect s u) (hs : s.ph ≠ .smp) : u.row = s.row := by
  cases hu with
  | yield hp hr => exact hr.symm
  | tick hp hr => exact settleTick_row hr
  | settle hp hr => exact hr.symm
  | sample hp => exact absurd hp hs
  | _ => simp

/-- COL changes in SMP and IDLE only (R151, R152, R187). -/
theorem effect_col {s u : State} (hu : StepEffect s u) (hs : s.ph ≠ .smp) (hi : s.ph ≠ .idle) : u.col = s.col := by
  cases hu with
  | yield hp => exact absurd hp hi
  | sample hp => exact absurd hp hs
  | _ => simp

/-- DPOS changes in the driver phases and in IDLE only. -/
theorem effect_dpos {s u : State} (hu : StepEffect s u) (ha : s.ph ≠ .act) (hd : s.ph ≠ .dea) (hi : s.ph ≠ .idle) :
    u.dpos = s.dpos := by
  cases hu with
  | yield hp => exact absurd hp hi
  | pin p hf => exact ((driverPhase_of_framePattern hf).elim ha hd).elim
  | frame p hf => exact ((driverPhase_of_framePattern hf).elim ha hd).elim
  | _ => simp

/-- STL is loaded at the end of an ACT frame, counted down in STL, and set to 0 in IDLE. -/
theorem effect_stl {s u : State} (hu : StepEffect s u) (ha : s.ph ≠ .act) (hs : s.ph ≠ .stl) (hi : s.ph ≠ .idle) :
    u.stl = s.stl := by
  cases hu with
  | yield hp => exact absurd hp hi
  | pin p hf =>
    have hdea : s.ph = .dea := (driverPhase_of_framePattern hf).resolve_left ha
    simp [frameAdvance_stl_dea, hdea]
  | frame p hf =>
    have hdea : s.ph = .dea := (driverPhase_of_framePattern hf).resolve_left ha
    simp [frameDone_stl_dea, hdea]
  | tick hp => exact absurd hp hs
  | settle hp => exact absurd hp hs
  | sample => simp

/-- PH stays or takes one of the changes of T1 to T10. -/
theorem effect_phase {s u : State} (hu : StepEffect s u) : u.ph = s.ph ∨ (s.ph, u.ph) ∈ phaseOrder := by
  cases hu with
  | yield hp => exact .inr (by simp [hp, phaseOrder])
  | pin p hf => simpa using frameAdvance_phase (s := pinWrite _ s) (by simpa using driverPhase_of_framePattern hf)
  | frame p hf =>
    exact .inr (by simpa using frameDone_phase (s := transmit p s) (by simpa using driverPhase_of_framePattern hf))
  | tick hp => exact settleTick_phase hp
  | settle hp => exact .inr (by simp [hp, phaseOrder])
  | sample hp => simpa using sampleAdvance_phase (s := passed (wr _ _ _ s)) (by simpa using hp)

/-- LAST and the reports belong to the Reporter's gate, which runs in IDLE only (R229). -/
theorem effect_reporter {s u : State} (hu : StepEffect s u) (hi : s.ph ≠ .idle) :
    u.last = s.last ∧ u.reports = s.reports := by
  cases hu with
  | yield hp => exact absurd hp hi
  | _ => simp

/-- The lines and the device belong to the driver (R27, R29, R30). -/
theorem effect_lines {s u : State} (hu : StepEffect s u) (ha : s.ph ≠ .act) (hd : s.ph ≠ .dea) :
    u.ser = s.ser ∧ u.sck = s.sck ∧ u.lat = s.lat ∧ u.sh = s.sh ∧ u.q = s.q := by
  cases hu with
  | pin p hf => exact ((driverPhase_of_framePattern hf).elim ha hd).elim
  | frame p hf => exact ((driverPhase_of_framePattern hf).elim ha hd).elim
  | _ => simp

/-- At L0 only the last event of a frame commits (R126, R129 (a)). -/
theorem effect_q {s u : State} (hu : StepEffect s u) (hl : s.level = .l0) (h25 : s.dpos.val ≠ 25) : u.q = s.q := by
  cases hu with
  | pin p => rw [frameAdvance_q, q_of_eventAt h25]
  | frame p hf hl1 => simp [hl] at hl1
  | _ => simp

/-- No operation writes the parameters or the level. -/
theorem effect_par_level {s u : State} (hu : StepEffect s u) : u.par = s.par ∧ u.level = s.level := by
  cases hu <;> simp

/-- Settles O46: what every step adds leaves the elements of R20, and each effect writes its own phase's elements only. -/
theorem eachElementHasOneWriter : Obligations.EachElementHasOneWriter := by
  intro s t hstep
  obtain ⟨u, hu, rfl⟩ := step_effect hstep
  simp only [endStep_snap, endStep_row, endStep_col, endStep_dpos, endStep_stl, endStep_ph, endStep_last, endStep_reports,
    endStep_ser, endStep_sck, endStep_lat, endStep_sh, endStep_q, endStep_par, endStep_level]
  exact ⟨fun hs => ⟨effect_snap hu hs, effect_row hu hs⟩, effect_col hu, effect_dpos hu, effect_stl hu, effect_phase hu,
    effect_reporter hu, effect_lines hu, effect_q hu, effect_par_level hu⟩

end Sys2Proof.Machine
end

section
/-! O35 and O39: the step as the operation its word encodes, and the reset state. -/

namespace Sys2Proof.Machine

/-- Settles O35: `fetch` decodes the sequencer word, and `endStep` makes the additions. -/
theorem stepRunsTheDecodedOperation : Obligations.StepRunsTheDecodedOperation := by
  intro s i hword
  have hfetch : fetch s = .ok i := hword
  simp only [step, hfetch]
  cases exec i s with
  | next u => rfl
  | fault f => rfl
  | refused r => rfl

/-- Right after a reset every invariant of R42 holds: the position is at 0, the clock low, the table empty. -/
theorem inv_resetAt (n : Nat) : Inv (State.resetAt n) where
  settle_pos := Nat.le_add_left 1 _
  stl_le := Nat.zero_le _
  dpos_phase := fun hne => absurd rfl hne
  stl_phase := fun hne => absurd rfl hne
  stl_pos := nofun
  row_phase := fun hne => absurd rfl hne
  col_phase := fun hne => absurd rfl hne
  sck_low := nofun
  lat_low := nofun
  l1_whole := nofun
  clock := Nat.zero_le _
  settling := nofun
  delayed := nofun
  table := resetAt_snap_wf n

/-- After a reset the column lines are draws, and `DriveInv` asks nothing of them before the first commit: no column precedes
column 0, and no bit has been sent (R261, R262). -/
theorem driveInv_resetAt (n : Nat) : DriveInv (State.resetAt n) where
  column := nofun
  idle_clear := nofun
  outgoing := nofun
  last_column := nofun
  sent := fun _ _ j hj => absurd hj (by simp)
  data := nofun

/-- After a reset the table and the trace are empty (R21, R261). -/
theorem tableIsTrace_resetAt (n : Nat) : TableIsTrace (State.resetAt n) where
  entries := fun _ _ => rfl
  table := resetAt_snap_wf n

/-- Settles O39: the reset state is the reset at step 0. -/
theorem resetMeetsTheInvariants : Obligations.ResetMeetsTheInvariants :=
  ⟨inv_resetAt 0, driveInv_resetAt 0, tableIsTrace_resetAt 0⟩

end Sys2Proof.Machine
end

section
/-! O32: the table write (R62, R68). -/

namespace Sys2Proof.Machine

/-- An inserted cell is dropped again by the filter on its own address. -/
theorem Memory.filter_insert_same (x : Host.Cell) (m : Memory) :
    (Memory.insert x m).filter (fun y => y.1 != x.1) = m.filter fun y => y.1 != x.1 := by
  induction m with
  | nil => simp [Memory.insert]
  | cons y m ih =>
    unfold Memory.insert
    split
    · simp
    · simp only [List.filter_cons, ih]

/-- Of two writes to one address the second alone counts. -/
theorem Memory.write_write_same (m : Memory) (a : Nat) (v w : Byte) : (m.write a v).write a w = m.write a w := by
  have hrest : (m.write a v).filter (fun x => x.1 != a) = m.filter fun x => x.1 != a := by
    unfold Memory.write
    split
    · simp
    · exact (Memory.filter_insert_same (a, v) _).trans (by simp)
  rw [Memory.write, hrest, Memory.write]

theorem wr_wr_same (c : Col) (r : Row) (v w : Bool) (s : State) : wr c r w (wr c r v s) = wr c r w s := by
  simp only [wr, tblWrite, Memory.write_write_same]

/-- Settles O32, from the laws of the table memory. -/
theorem tableWriteIsIdempotentAndLocal : Obligations.TableWriteIsIdempotentAndLocal := by
  intro c r v s
  refine ⟨wr_wr_same c r v v s, ?_, fun c' r' hne => ?_, tblWrite_wf c r v s⟩
  · exact (tblRead_tblWrite c c r r v s).trans (if_pos ⟨rfl, rfl⟩)
  · exact (tblRead_tblWrite c c' r r' v s).trans (if_neg hne)

end Sys2Proof.Machine
end

section
/-! O33: the packed views (R65). -/

namespace Sys2Proof.Machine

theorem columnWord_getLsbD (c : Col) (r : Row) (s : State) : (columnWord c s).getLsbD r.val = tblRead c r s :=
  (BitVec.getLsbD_ofFnLE ..).trans (dif_pos r.isLt)

/-- Bit `9*c + r` of the table's word is the byte at the entry's own address (R61). -/
theorem tableWord_getLsbD (c : Col) (r : Row) (s : State) :
    (tableWord s).getLsbD (9 * c.val + r.val) = tblRead c r s :=
  (BitVec.getLsbD_ofFnLE ..).trans (dif_pos (tblAddr_lt c r))

/-- Settles O33: both views read the entry at its own address. -/
theorem packedViewsHoldTheEntries : Obligations.PackedViewsHoldTheEntries :=
  fun c r s => ⟨columnWord_getLsbD c r s, tableWord_getLsbD c r s⟩

end Sys2Proof.Machine
end

section
/-! O30 and O28: the Reporter's read port and its gate away from IDLE (R63, R66, R229). -/

namespace Sys2Proof.Machine

theorem idle_iff {s : State} : idle s = true ↔ s.ph = .idle := by simp [idle]

theorem reporterRead_idle {s : State} (hp : s.ph = .idle) {c r : Nat} (hc : c < 8) (hr : r < 9) :
    reporterRead c r s = .ok (tblRead ⟨c, hc⟩ ⟨r, hr⟩ s) := by simp [reporterRead, idle_iff.mpr hp, hc, hr]

theorem reporterRead_outOfRange {s : State} (hp : s.ph = .idle) {c r : Nat} (h : ¬(c < 8 ∧ r < 9)) :
    reporterRead c r s = .error .reporterOutOfRange := by simp only [reporterRead, idle_iff.mpr hp, h, if_true, dite_false]

theorem reporterRead_outsideIdle {s : State} (hp : s.ph ≠ .idle) (c r : Nat) :
    reporterRead c r s = .error .reporterOutsideIdle := by simp [reporterRead, idle_iff, hp]

/-- Settles O30: one equation of the port for each clause. -/
theorem reporterReadsOnlyInIdle : Obligations.ReporterReadsOnlyInIdle := fun c r _ =>
  ⟨fun hp _ _ => reporterRead_idle hp _ _, fun hp hout => reporterRead_outOfRange hp (by omega),
    fun hp => reporterRead_outsideIdle hp c r⟩

theorem gateOpen_iff {s : State} : gateOpen s = true ↔ s.last + 1000 ≤ s.inp.now :=
  decide_eq_true_iff

theorem exec_yield_clockWentBack {s : State} (h : s.inp.now < s.last) : exec .yield s = .refused .clockWentBack := by
  simp [exec, execYield, h]

/-- YIELD outside IDLE: an open gate is refused, a shut one passes the step (R63, U9; log 9). -/
theorem exec_yield_outsideIdle {s : State} (hp : s.ph ≠ .idle) (h : s.last ≤ s.inp.now) :
    exec .yield s = if gateOpen s then .refused .reporterOutsideIdle else .next (passed s) := by
  simp [exec, execYield, hp, Nat.not_lt.mpr h]

/-- Settles O28: outside IDLE the outcome is decided by the gate, that is by NOW - LAST against 1000. -/
theorem yieldAwayFromIdle : Obligations.YieldAwayFromIdle := by
  intro s
  refine ⟨exec_yield_clockWentBack, fun hp hclock => ?_⟩
  rw [exec_yield_outsideIdle hp hclock]
  refine ⟨fun hopen => ?_, fun hshut => ?_⟩
  · exact if_pos (gateOpen_iff.mpr (by omega))
  · exact if_neg fun hg => by have := gateOpen_iff.mp hg; omega

end Sys2Proof.Machine
end

section
/-! O48: which inputs a step reads (R78). An operation commutes with another choice of the inputs that its phase does not read;
what every step adds then replaces K and the draw, and keeps NOW's growth. -/

namespace Sys2Proof.Machine

/-! ### Other inputs -/

/-- The same state with other inputs at the coming step. -/
def State.withInputs (s : State) (j : Inputs) : State := { s with inp := j }

/-- The inputs `j` agree with those of `s` on all that the phase of `s` reads: NOW in IDLE, K and the draw in SMP (R78). -/
structure ReadsAlike (s : State) (j : Inputs) : Prop where
  now : s.ph = .idle → j.now = s.inp.now
  keys : s.ph = .smp → j.keys = s.inp.keys
  draw : s.ph = .smp → j.draw = s.inp.draw

/-- An outcome with its next state, if it has one, replaced. -/
def mapNext (f : State → State) : Host.Outcome State Fault Refusal → Host.Outcome State Fault Refusal
  | .next u => .next (f u)
  | .fault e => .fault e
  | .refused e => .refused e

theorem mapNext_eq_self {f : State → State} {o : Host.Outcome State Fault Refusal} (h : ∀ u, o = .next u → f u = u) :
    mapNext f o = o := by
  cases o with
  | next u => exact congrArg Host.Outcome.next (h u rfl)
  | fault e => rfl
  | refused e => rfl

/-! ### The operations of the state read no input but the gate and the row read -/

@[simp] theorem withInputs_col (s : State) (j : Inputs) : (s.withInputs j).col = s.col := rfl
@[simp] theorem withInputs_dpos (s : State) (j : Inputs) : (s.withInputs j).dpos = s.dpos := rfl
@[simp] theorem withInputs_level (s : State) (j : Inputs) : (s.withInputs j).level = s.level := rfl
@[simp] theorem fetch_withInputs (s : State) (j : Inputs) : fetch (s.withInputs j) = fetch s := rfl
@[simp] theorem settleDone_withInputs (s : State) (j : Inputs) :
    settleDone (s.withInputs j) = (settleDone s).withInputs j := rfl

@[simp] theorem pinWrite_withInputs (e : PinEvent) (s : State) (j : Inputs) :
    pinWrite e (s.withInputs j) = (pinWrite e s).withInputs j := by
  obtain ⟨line, level⟩ := e
  cases line <;> rfl

@[simp] theorem pinWrites_withInputs (es : List PinEvent) (s : State) (j : Inputs) :
    es.foldl (fun t e => pinWrite e t) (s.withInputs j) = (es.foldl (fun t e => pinWrite e t) s).withInputs j := by
  induction es generalizing s with
  | nil => rfl
  | cons e es ih => rw [List.foldl_cons, pinWrite_withInputs, ih, List.foldl_cons]

@[simp] theorem transmit_withInputs (p : Byte) (s : State) (j : Inputs) :
    transmit p (s.withInputs j) = (transmit p s).withInputs j := pinWrites_withInputs (frameEvents p) s j

@[simp] theorem frameDone_withInputs (s : State) (j : Inputs) : frameDone (s.withInputs j) = (frameDone s).withInputs j := by
  cases hp : s.ph <;> simp [frameDone, State.withInputs, hp]

@[simp] theorem frameAdvance_withInputs (s : State) (j : Inputs) :
    frameAdvance (s.withInputs j) = (frameAdvance s).withInputs j := by
  by_cases hd : s.dpos.val < 25
  · rw [frameAdvance_inside hd, frameAdvance_inside (by exact hd)]
    rfl
  · have h25 : s.dpos.val = 25 := by omega
    rw [frameAdvance_end h25, frameAdvance_end (by exact h25), frameDone_withInputs]

@[simp] theorem settleTick_withInputs (s : State) (j : Inputs) : settleTick (s.withInputs j) = (settleTick s).withInputs j := by
  by_cases hmore : 1 < s.stl
  · rw [settleTick_more hmore, settleTick_more (by exact hmore)]
    rfl
  · have hlast : s.stl ≤ 1 := Nat.le_of_not_lt hmore
    rw [settleTick_end hlast, settleTick_end (by exact hlast), settleDone_withInputs]

@[simp] theorem sampleAdvance_withInputs (s : State) (j : Inputs) :
    sampleAdvance (s.withInputs j) = (sampleAdvance s).withInputs j := by
  by_cases hrow : s.row.val < 8
  · rw [sampleAdvance_row hrow, sampleAdvance_row (by exact hrow)]
    rfl
  have hrow : s.row.val = 8 := by omega
  by_cases hcol : s.col.val < 7
  · rw [sampleAdvance_column hrow hcol, sampleAdvance_column (by exact hrow) (by exact hcol)]
    rfl
  · have hcol : s.col.val = 7 := by omega
    rw [sampleAdvance_sweep hrow hcol, sampleAdvance_sweep (by exact hrow) (by exact hcol)]
    rfl

theorem gateOpen_withInputs {s : State} {j : Inputs} (h : j.now = s.inp.now) : gateOpen (s.withInputs j) = gateOpen s := by
  simp [gateOpen, State.withInputs, h]

theorem reporterGate_withInputs {s : State} {j : Inputs} (h : j.now = s.inp.now) :
    reporterGate (s.withInputs j) = (reporterGate s).withInputs j := by
  unfold reporterGate
  rw [gateOpen_withInputs h]
  split
  · simp only [State.withInputs, h]; rfl
  · rfl

theorem pinRead_withInputs {s : State} {j : Inputs} (hk : j.keys = s.inp.keys) (hd : j.draw = s.inp.draw) (r : Row) :
    pinRead r (s.withInputs j) = pinRead r s := by
  simp only [pinRead, State.withInputs, hk, hd]
  rfl

theorem eventOf_withInputs {s : State} {j : Inputs} (h : ReadsAlike s j) : eventOf (s.withInputs j) = eventOf s := by
  cases hp : s.ph with
  | smp =>
    rw [eventOf_smp hp, eventOf_smp (by exact hp)]
    exact congrArg (Event.smp s.col s.row) (pinRead_withInputs (h.keys hp) (h.draw hp) s.row)
  | _ => cases hl : s.level <;> simp [eventOf, State.withInputs, hp, hl]

/-! ### The operation at the position -/

theorem pinStep_withInputs (here : Bool) (e : PinEvent) (s : State) (j : Inputs) :
    pinStep here e (s.withInputs j) = (pinStep here e s).withInputs j := by
  cases here <;> simp [pinStep]

theorem driverPhase_withInputs (here : Bool) (p : Byte) (s : State) (j : Inputs) :
    driverPhase here p (s.withInputs j) = (driverPhase here p s).withInputs j := by
  cases hl : s.level with
  | l0 => simp [driverPhase, hl, pinStep_withInputs]
  | l1 => cases here <;> simp [driverPhase, hl]

theorem exec_yield_withInputs {s : State} {j : Inputs} (hp : s.ph = .idle) (hn : j.now = s.inp.now) :
    exec .yield (s.withInputs j) = mapNext (·.withInputs j) (exec .yield s) := by
  by_cases hclock : s.last ≤ s.inp.now
  · have hclock' : (s.withInputs j).last ≤ (s.withInputs j).inp.now := hclock.trans_eq hn.symm
    rw [exec_yield_place (s := s.withInputs j) hp hclock', exec_yield_place hp hclock, reporterGate_withInputs hn]
    rfl
  · have hback : s.inp.now < s.last := Nat.lt_of_not_le hclock
    have hback' : (s.withInputs j).inp.now < (s.withInputs j).last := hn.trans_lt hback
    rw [exec_yield_clockWentBack hback', exec_yield_clockWentBack hback]
    rfl

theorem exec_tick_withInputs {s : State} (hp : s.ph = .stl) (j : Inputs) :
    exec (.tick s.col) (s.withInputs j) = mapNext (·.withInputs j) (exec (.tick s.col) s) := by
  rw [exec_tick_place hp, ← withInputs_col s j, exec_tick_place (s := s.withInputs j) hp]
  cases hl : s.level <;> simp [hl, mapNext]

theorem exec_smp_withInputs {s : State} {j : Inputs} (hp : s.ph = .smp) (hk : j.keys = s.inp.keys)
    (hd : j.draw = s.inp.draw) :
    exec (.smp s.col s.row) (s.withInputs j) = mapNext (·.withInputs j) (exec (.smp s.col s.row) s) := by
  rw [exec_smp_place hp, mapNext, ← sampleAdvance_withInputs, ← pinRead_withInputs hk hd]
  exact exec_smp_place (s := s.withInputs j) hp

/-- The operation at the position commutes with other inputs that agree on what its phase reads. -/
theorem exec_fetched_withInputs {s : State} {j : Inputs} {i : Instr} (hf : fetch s = .ok i) (h : ReadsAlike s j) :
    exec i (s.withInputs j) = mapNext (·.withInputs j) (exec i s) := by
  rcases fetch_cases hf with ⟨hp, -, -, rfl⟩ | ⟨-, -, rfl⟩ | ⟨hp, -, rfl⟩ | ⟨hp, rfl⟩ | ⟨-, -, -, rfl⟩
  · exact exec_yield_withInputs hp (h.now hp)
  · exact congrArg Host.Outcome.next (driverPhase_withInputs _ (cpat s.col) s j)
  · exact exec_tick_withInputs hp j
  · exact exec_smp_withInputs hp (h.keys hp) (h.draw hp)
  · exact congrArg Host.Outcome.next (driverPhase_withInputs _ clearPattern s j)

/-! ### The step -/

theorem endStep_withInputs {s : State} {j : Inputs} (h : ReadsAlike s j) (u : State) :
    endStep (s.withInputs j) (u.withInputs j) = (endStep s u).withInputs (nextInputs (s.tick + 1) j) := by
  unfold endStep
  rw [eventOf_withInputs h]
  rfl

/-- No operation writes the inputs. -/
theorem effect_inp {s u : State} (hu : StepEffect s u) : u.inp = s.inp := by
  cases hu <;> simp

/-- What every step adds replaces the inputs by those that follow them. -/
theorem step_inp {s t : State} (h : step s = .next t) : t.inp = nextInputs (s.tick + 1) s.inp := by
  obtain ⟨u, hu, rfl⟩ := step_effect h
  rw [endStep_inp, effect_inp hu]

/-- A step takes other inputs alike: it answers or refuses as before, and only the next inputs follow from the others
(R78). -/
theorem step_withInputs {s : State} {j : Inputs} (h : ReadsAlike s j) :
    step (s.withInputs j) = mapNext (·.withInputs (nextInputs (s.tick + 1) j)) (step s) := by
  cases hf : fetch s with
  | error e => simp only [step, fetch_withInputs, hf, mapNext]
  | ok i =>
    simp only [step, fetch_withInputs, hf, exec_fetched_withInputs hf h]
    cases exec i s with
    | next u => exact congrArg Host.Outcome.next (endStep_withInputs h u)
    | fault e => rfl
    | refused e => rfl

/-- The next K does not follow from this one, so outside SMP a step does not depend on it (R31, R78). -/
theorem step_with_keys {s : State} (hp : s.ph ≠ .smp) (k : Keys) :
    step (s.withInputs { s.inp with keys := k }) = step s := by
  have halike : ReadsAlike s { s.inp with keys := k } := ⟨fun _ => rfl, fun hs => absurd hs hp, fun hs => absurd hs hp⟩
  rw [step_withInputs halike]
  refine mapNext_eq_self fun t ht => ?_
  rw [show nextInputs (s.tick + 1) { s.inp with keys := k } = t.inp from (step_inp ht).symm]
  rfl

/-! ### The sample of a key's own column -/

/-- Under CPAT[c] alone an isolated row line has the contact of column c (R164). -/
theorem isolatedLevel_cpat (c : Col) (k : Keys) (r : Row) : isolatedLevel (cpat c) k r = closed k c r := by
  rw [Bool.eq_iff_iff]
  simp [isolatedLevel, mem_allCols, Fin.val_inj]

/-- A step in SMP writes the row read to the entry of the position (R184). -/
theorem step_smp {s : State} (hp : s.ph = .smp) :
    ∃ t, step s = .next t ∧ tblRead s.col s.row t = pinRead s.row s := by
  refine ⟨_, step_next_iff.mpr ⟨_, _, fetch_smp hp, exec_smp_place hp, rfl⟩, ?_⟩
  rw [tblRead_congr (t := tblWrite s.col s.row (pinRead s.row s) s) (by simp), tblRead_tblWrite, if_pos ⟨rfl, rfl⟩]

/-- On an isolated matrix with an unstuck line, the delay passed and its own column alone high, the entry takes the contact
(R190). -/
theorem step_smp_ownColumn {s : State} (hp : s.ph = .smp) (hsince : s.par.settleTicks ≤ s.since)
    (hstuck : s.par.stuck.get s.row = .none) (hkind : s.par.matrixKind = .isolated) (hq : s.q = cpat s.col) :
    ∃ t, step s = .next t ∧ tblRead s.col s.row t = closed s.inp.keys s.col s.row := by
  obtain ⟨t, hstep, hread⟩ := step_smp hp
  refine ⟨t, hstep, ?_⟩
  rw [hread, pinRead_isolated hstuck (settled_iff.mpr ⟨hp, hsince⟩) hkind, hq, isolatedLevel_cpat]

/-- Settles O48: the operation at the position commutes with other inputs wherever its phase does not read them. -/
theorem inputsAreReadOnlyInTheirPhase : Obligations.InputsAreReadOnlyInTheirPhase := by
  refine ⟨fun s k hp => step_with_keys hp k, fun s k hp hsince hstuck hkind hq => ?_, fun s t n hp hstep => ?_⟩
  · exact step_smp_ownColumn (s := s.withInputs { s.inp with keys := k }) hp hsince hstuck hkind hq
  · have halike : ReadsAlike s { s.inp with now := n } := ⟨fun hi => absurd hi hp, fun _ => rfl, fun _ => rfl⟩
    refine ⟨n + Config.elapsed (s.tick + 1), (step_withInputs halike).trans ?_⟩
    rw [hstep, mapNext, State.withInputs, step_inp hstep]
    rfl

end Sys2Proof.Machine
end

section
/-! O1 to O5: the decoder and the encoder are inverse to each other, and the encoder's words are exactly the legal ones (R90, R92,
R95, R96, R98, R99). A sequencer word is read as the number 128 * PH + 16 * COL + ROW. -/

namespace Sys2Proof

/-! ### The fields of a sequencer word (R96) -/

theorem toNat_packSeq (ph : BitVec 3) (c : Col) (r : Row) :
    (packSeq ph c r).toNat = 128 * ph.toNat + 16 * c.val + r.val := by
  have hc : c.val % 8 = c.val := Nat.mod_eq_of_lt c.isLt
  have hr : r.val % 16 = r.val := Nat.mod_eq_of_lt (by omega)
  have hcol : (ph ++ BitVec.ofNat 3 c.val).toNat = 8 * ph.toNat + c.val := by
    rw [BitVec.toNat_append, ← Nat.shiftLeft_add_eq_or_of_lt (BitVec.isLt _), Nat.shiftLeft_eq]
    simp only [BitVec.toNat_ofNat, Nat.reducePow, hc, Nat.mul_comm]
  rw [packSeq, BitVec.toNat_append, ← Nat.shiftLeft_add_eq_or_of_lt (BitVec.isLt _), Nat.shiftLeft_eq, hcol]
  simp only [BitVec.toNat_ofNat, Nat.reducePow, hr]
  omega

/-- A word is its three fields: none of its ten bits is outside them. -/
theorem packSeq_eq {w : BitVec 10} {ph : BitVec 3} {c : Col} {r : Row} (hph : w.toNat / 128 = ph.toNat)
    (hc : w.toNat / 16 % 8 = c.val) (hr : w.toNat % 16 = r.val) : packSeq ph c r = w := by
  apply BitVec.eq_of_toNat_eq
  rw [toNat_packSeq]
  omega

theorem toNat_seqPhase (w : BitVec 10) : (w.extractLsb' 7 3).toNat = w.toNat / 128 := by
  simp only [BitVec.extractLsb'_toNat, Nat.shiftRight_eq_div_pow]
  omega

theorem seqCol_val (w : BitVec 10) : (seqCol w).val = w.toNat / 16 % 8 := by
  simp only [seqCol, BitVec.extractLsb'_toNat, Nat.shiftRight_eq_div_pow, Nat.reducePow]

theorem seqRow_eq (w : BitVec 10) : seqRow w = w.toNat % 16 := by
  simp only [seqRow, BitVec.extractLsb'_toNat, Nat.shiftRight_zero, Nat.reducePow]

theorem packSeq_decoded {w : BitVec 10} {ph : BitVec 3} {c : Col} {r : Row} (hph : (w.extractLsb' 7 3).toNat = ph.toNat)
    (hc : seqCol w = c) (hr : seqRow w = r.val) : packSeq ph c r = w :=
  packSeq_eq (toNat_seqPhase w ▸ hph) (by rw [← hc, seqCol_val]) (seqRow_eq w ▸ hr)

@[simp] theorem seqPhase_packSeq (ph : BitVec 3) (c : Col) (r : Row) : (packSeq ph c r).extractLsb' 7 3 = ph := by
  apply BitVec.eq_of_toNat_eq
  rw [toNat_seqPhase, toNat_packSeq]
  omega

@[simp] theorem seqCol_packSeq (ph : BitVec 3) (c : Col) (r : Row) : seqCol (packSeq ph c r) = c := by
  apply Fin.ext
  rw [seqCol_val, toNat_packSeq]
  omega

@[simp] theorem seqRow_packSeq (ph : BitVec 3) (c : Col) (r : Row) : seqRow (packSeq ph c r) = r.val := by
  rw [seqRow_eq, toNat_packSeq]
  omega

/-! ### The decoder against the encoder -/

/-- The decoder reads back what the encoder writes. -/
theorem decode_encode (i : Instr) : decode (encode i) = .ok i := by
  cases i with
  | yield | actC c | tick c | smp c r | dea => simp [encode, decode, decodeSEQ]
  | _ => rfl

/-- R95: each of the eight labels that is read is the label of what it is read as. -/
theorem encode_of_decodePE {w : BitVec 3} {i : Instr} (h : decodePE w = .ok i) : encode i = .pe w := by
  have key : ∀ w : BitVec 3, ∀ i ∈ decoded (decodePE w), encode i = .pe w := by decide
  exact key w i (by rw [h]; rfl)

theorem encode_of_decodeF8 {w : BitVec 8} {i : Instr} (h : decodeF8 w = .ok i) : encode i = .f8 w := by
  unfold decodeF8 at h
  split_ifs at h with hw hw hw hw hw hw hw hw hw <;> cases h <;> rw [hw] <;> rfl

theorem encode_of_decodeSEQ {w : BitVec 10} {i : Instr} (h : decodeSEQ w = .ok i) : encode i = .seq w := by
  unfold decodeSEQ at h
  split at h
  case h_1 hph | h_5 hph =>
    split at h
    · next hz => cases h; exact congrArg Code.seq (packSeq_decoded hph hz.1 hz.2)
    · cases h
  case h_2 hph | h_3 hph =>
    split at h
    · next hz => cases h; exact congrArg Code.seq (packSeq_decoded hph rfl hz)
    · cases h
  case h_4 hph =>
    split at h
    · cases h; exact congrArg Code.seq (packSeq_decoded hph rfl rfl)
    · cases h
  case h_6 => cases h

/-- Reading a word as an operation is being that operation's encoding. -/
theorem decode_eq_ok_iff {w : Code} {i : Instr} : decode w = .ok i ↔ encode i = w := by
  refine ⟨fun h => ?_, fun h => h ▸ decode_encode i⟩
  cases w with
  | pe w => exact encode_of_decodePE h
  | f8 w => exact encode_of_decodeF8 h
  | seq w => exact encode_of_decodeSEQ h

/-- Settles O1: the fields of a packed word are the operands that were packed. -/
theorem decodeOfEncodeIsTheOperation : Obligations.DecodeOfEncodeIsTheOperation := decode_encode

/-- Settles O2: a word that is read consists of the fields it is read from. -/
theorem encodeOfDecodeIsTheWord : Obligations.EncodeOfDecodeIsTheWord := fun _ _ => decode_eq_ok_iff.mp

/-! ### The legal words (R98, R99) -/

theorem encode_wellFormed (i : Instr) : (encode i).wellFormed = true := by
  cases i with
  | actC c => exact Laws.EncodesLegal.actC c
  | tick c => exact Laws.EncodesLegal.tick c
  | smp c r => exact Laws.EncodesLegal.smp c r
  | _ => rfl

/-- The pin events' operations, in the order of their labels (R95). -/
def peInstrs : List Instr := [.ser0, .ser1, .sck0, .sck1, .lat0, .lat1]

theorem exists_encode_of_peLegal {w : BitVec 3} (h : peLegal w = true) : ∃ i, encode i = .pe w := by
  have key : ∀ w : BitVec 3, peLegal w = true → ∃ i ∈ peInstrs, encode i = .pe w := by decide
  obtain ⟨i, -, hi⟩ := key w h
  exact ⟨i, hi⟩

/-- The one-hot frame of column `c` is its operation's (R92). -/
theorem encode_actInstr (c : Col) : encode (Machine.actInstr c) = .f8 (1#8 <<< c.val) := by fin_cases c <;> rfl

theorem exists_encode_of_f8Legal {w : BitVec 8} (h : f8Legal w = true) : ∃ i, encode i = .f8 w := by
  simp only [f8Legal, Bool.or_eq_true, beq_iff_eq, List.any_eq_true] at h
  obtain rfl | ⟨c, -, rfl⟩ := h
  · exact ⟨.clr, rfl⟩
  · exact ⟨Machine.actInstr c, encode_actInstr c⟩

theorem exists_encode_of_seqLegal {w : BitVec 10} (h : seqLegal w = true) : ∃ i, encode i = .seq w := by
  have hcol : w.toNat / 16 % 8 < 8 := Nat.mod_lt _ (by omega)
  simp only [seqLegal] at h
  split_ifs at h with h04 h12 h3
  · simp only [Bool.and_eq_true, beq_iff_eq] at h
    obtain ⟨hc, hr⟩ := h
    rcases h04 with hph | hph
    · exact ⟨.yield, congrArg Code.seq (packSeq_eq hph hc hr)⟩
    · exact ⟨.dea, congrArg Code.seq (packSeq_eq hph hc hr)⟩
  · have hr : w.toNat % 16 = 0 := eq_of_beq h
    rcases h12 with hph | hph
    · exact ⟨.actC ⟨_, hcol⟩, congrArg Code.seq (packSeq_eq hph rfl hr)⟩
    · exact ⟨.tick ⟨_, hcol⟩, congrArg Code.seq (packSeq_eq hph rfl hr)⟩
  · exact ⟨.smp ⟨_, hcol⟩ ⟨_, of_decide_eq_true h⟩, congrArg Code.seq (packSeq_eq h3 rfl rfl)⟩

/-- The encoder writes every legal word and no other. -/
theorem exists_encode_iff_wellFormed {w : Code} : (∃ i, encode i = w) ↔ w.wellFormed = true := by
  refine ⟨fun ⟨i, hi⟩ => hi ▸ encode_wellFormed i, fun h => ?_⟩
  cases w with
  | pe w => exact exists_encode_of_peLegal h
  | f8 w => exact exists_encode_of_f8Legal h
  | seq w => exact exists_encode_of_seqLegal h

/-- Settles O3: what is read is what is encoded, and what is encoded is what is legal. -/
theorem decoderAcceptsExactlyTheLegalWords : Obligations.DecoderAcceptsExactlyTheLegalWords := fun _ => by
  simp only [decode_eq_ok_iff, exists_encode_iff_wellFormed]

/-! ### The words of the tables -/

/-- Settles O4: the six labels are encodings; the line code 3 of the last two is none (R99). -/
theorem pinEventLabelsOfTheTable : Obligations.PinEventLabelsOfTheTable :=
  ⟨decode_encode .ser0, decode_encode .ser1, decode_encode .sck0, decode_encode .sck1, decode_encode .lat0,
    decode_encode .lat1, rfl, rfl⟩

/-- Settles O5: the accepted words are encodings (V-E1, V-E2); the others fail the one check their reason names (R99). -/
theorem wordsOfTheFrameAndSequencerTables : Obligations.WordsOfTheFrameAndSequencerTables :=
  ⟨decode_encode .clr, decode_encode .act3, decode_encode .act7, decode_encode .yield, decode_encode (.actC 3),
    decode_encode (.tick 3), decode_encode (.smp 3 5), decode_encode (.smp 7 8), decode_encode .dea, rfl, rfl, rfl, rfl⟩

end Sys2Proof
end

section
/-! O6: the frame, event by event (R93, R121). -/

namespace Sys2Proof.Machine

theorem frameEvents_length (p : Byte) : (frameEvents p).length = 26 := rfl

/-- The three events of bit `i` (R93). -/
theorem frameEvents_bit (p : Byte) (i : Fin 8) :
    (frameEvents p)[1 + 3 * i.val]? = some ⟨.ser, p.getLsbD i.val⟩ ∧ (frameEvents p)[2 + 3 * i.val]? = some ⟨.sck, true⟩
      ∧ (frameEvents p)[3 + 3 * i.val]? = some ⟨.sck, false⟩ := by
  fin_cases i <;> exact ⟨rfl, rfl, rfl⟩

/-- Settles O6: the list is read off at each position. -/
theorem frameIsTwentySixEventsInOrder : Obligations.FrameIsTwentySixEventsInOrder := fun p =>
  ⟨frameEvents_length p, rfl, frameEvents_bit p, rfl, frameEvents_getElem p⟩

end Sys2Proof.Machine
end

section
/-! O31: operations executed away from their place (log 7). Each answers its effect on the lines, the device or the table, none of
which moves the position. -/

namespace Sys2Proof.Machine

/-! ### What leaves the position -/

theorem samePosition_passed_wr (c : Col) (r : Row) (v : Bool) (s : State) : SamePosition s (passed (wr c r v s)) :=
  ⟨rfl, rfl, rfl, rfl, rfl⟩

theorem samePosition_pinWrite (e : PinEvent) (s : State) : SamePosition s (pinWrite e s) := by constructor <;> simp

theorem samePosition_transmit (p : Byte) (s : State) : SamePosition s (transmit p s) := by constructor <;> simp

theorem samePosition_frameOp {p : Byte} {s : State} (h : framePattern s ≠ some p) : SamePosition s (frameOp p s) := by
  rw [frameOp, if_neg h]
  exact samePosition_transmit p s

/-- A driver phase's word away from its phase acts at either level, and the scanner does not move (log 7). -/
theorem samePosition_driverPhase (p : Byte) (s : State) : SamePosition s (driverPhase false p s) := by
  unfold driverPhase
  split
  · exact samePosition_pinWrite _ s
  · exact samePosition_transmit p s

/-! ### The operations by their operand -/

theorem exec_pinInstr (e : PinEvent) (s : State) : exec (pinInstr e) s = .next (pinOp e s) := by
  rcases e with ⟨_ | _ | _, _ | _⟩ <;> rfl

theorem exec_actInstr (c : Col) (s : State) : exec (actInstr c) s = .next (frameOp (cpat c) s) := by
  fin_cases c <;> rfl

/-- The event due is the one the frame's list holds at DPOS (R121). -/
theorem dueEvent_eq_some_iff {e : PinEvent} {s : State} :
    dueEvent s = some e ↔ ∃ p, framePattern s = some p ∧ (frameEvents p)[s.dpos.val]? = some e := by
  simp only [dueEvent, Option.map_eq_some_iff, frameEvents_getElem, Option.some.injEq]

theorem exec_tick_away {c : Col} {s : State} (h : ¬(s.ph = .stl ∧ s.col = c)) : exec (.tick c) s = .next (passed s) :=
  if_neg h

theorem exec_smp_away {c : Col} {r : Row} {s : State} (h : ¬(s.ph = .smp ∧ s.col = c ∧ s.row = r)) :
    exec (.smp c r) s = .next (passed (wr c r (rd r s) s)) :=
  if_neg h

theorem exec_actC_away {c : Col} {s : State} (h : ¬(s.ph = .act ∧ s.col = c)) :
    exec (.actC c) s = .next (driverPhase false (cpat c) s) := by
  have hhere : (s.ph == .act && s.col == c) = false := by simpa using h
  rw [← hhere]
  rfl

theorem exec_dea_away {s : State} (h : s.ph ≠ .dea) : exec .dea s = .next (driverPhase false clearPattern s) := by
  have hhere : (s.ph == .dea) = false := by simpa using h
  rw [← hhere]
  rfl

/-- Settles O31: away from its place each operation answers one of the effects above. -/
theorem operationsAwayFromTheirPlaceLeaveThePosition : Obligations.OperationsAwayFromTheirPlaceLeaveThePosition := by
  refine ⟨fun e s h => ?_, fun c s h => ⟨?_, ?_⟩, fun s h => ⟨?_, ?_⟩, fun c s h => exec_tick_away h, fun c r s h => ?_⟩
  · have hnot : dueEvent s ≠ some e := fun hdue =>
      have ⟨p, hp, he⟩ := dueEvent_eq_some_iff.mp hdue
      h p hp he
    exact ⟨_, exec_pinInstr e s, pinOp_not_due hnot ▸ samePosition_pinWrite e s⟩
  · exact ⟨_, exec_actInstr c s, samePosition_frameOp (mt framePattern_eq_cpat.mp h)⟩
  · exact ⟨_, exec_actC_away h, samePosition_driverPhase _ s⟩
  · exact ⟨_, rfl, samePosition_frameOp (mt framePattern_eq_clear.mp h)⟩
  · exact ⟨_, exec_dea_away h, samePosition_driverPhase _ s⟩
  · exact ⟨_, exec_smp_away h, samePosition_passed_wr c r _ s⟩

end Sys2Proof.Machine
end

section
/-! O7 to O11: the pin events of the scanner's frame in their place (R122 to R126). The event due is the one the frame has at DPOS;
it is written, and the position moves on. -/

namespace Sys2Proof.Machine

/-! ### The event at a position (R121) -/

theorem eventAt_ser (p : Byte) {d : FramePos} {i : Fin 8} (h : d.val = 1 + 3 * i.val) :
    eventAt p d = ⟨.ser, p.getLsbD i.val⟩ := by
  have h0 : d.val ≠ 0 := by omega
  have h25 : d.val ≠ 25 := by omega
  have hslot : d.val % 3 = 1 := by omega
  have hbit : (d.val - 1) / 3 = i.val := by omega
  simp only [eventAt, h0, h25, hslot, hbit, if_false, if_true]

theorem eventAt_sck1 (p : Byte) {d : FramePos} (h : d.val % 3 = 2) : eventAt p d = ⟨.sck, true⟩ := by
  have h0 : d.val ≠ 0 := by omega
  have h25 : d.val ≠ 25 := by omega
  simp [eventAt, h0, h25, h]

theorem eventAt_sck0 (p : Byte) {d : FramePos} (h : d.val % 3 = 0) (h3 : 3 ≤ d.val) : eventAt p d = ⟨.sck, false⟩ := by
  have h0 : d.val ≠ 0 := by omega
  have h25 : d.val ≠ 25 := by omega
  simp [eventAt, h0, h25, h]

/-! ### The event due -/

/-- In the driver phases the scanner has a frame to send (R120). -/
theorem exists_framePattern {s : State} (h : s.ph = .act ∨ s.ph = .dea) : ∃ p, framePattern s = some p := by
  rcases h with h | h
  · exact ⟨_, framePattern_eq_cpat.mpr ⟨h, rfl⟩⟩
  · exact ⟨_, framePattern_eq_clear.mpr h⟩

/-- The event the frame has at DPOS is written, and the position moves on (T1, T2, T8, T9). -/
theorem exec_due {s : State} {p : Byte} {e : PinEvent} (hf : framePattern s = some p) (he : eventAt p s.dpos = e) :
    exec (pinInstr e) s = .next (frameAdvance (pinWrite e s)) := by
  rw [exec_pinInstr, pinOp_due (by simp [dueEvent, hf, he])]

/-- Before the frame's last event moving on is DPOS + 1 (T1, T8). -/
theorem exec_due_inside {s : State} {p : Byte} {e : PinEvent} (hf : framePattern s = some p) (he : eventAt p s.dpos = e)
    (hd : s.dpos.val < 25) : exec (pinInstr e) s = .next { pinWrite e s with dpos := s.dpos + 1 } := by
  rw [exec_due hf he, frameAdvance_inside (by simpa using hd), pinWrite_dpos]

/-- The device's shift as R134 writes it: SER at the top, the other bits one place down. -/
theorem shiftIn_eq (b : Bool) (sh : Byte) : shiftIn b sh = (if b then 0x80#8 else 0x00#8) ||| (sh >>> 1) := by
  apply BitVec.eq_of_getLsbD_eq
  intro i hi
  rw [getLsbD_shiftIn, BitVec.getLsbD_or, BitVec.getLsbD_ushiftRight, Nat.add_comm 1 i]
  have htop : (if b then 0x80#8 else 0x00#8).getLsbD i = (b && decide (i = 7)) := by
    cases b
    · simp
    · interval_cases i <;> rfl
  rw [htop]
  by_cases h7 : i = 7
  · simp [h7, BitVec.getLsbD_of_ge]
  · simp [h7]

/-! ### The obligations -/

/-- Settles O7: the first event of either frame is LAT0. -/
theorem lat0OpensTheFrame : Obligations.Lat0OpensTheFrame := by
  refine ⟨rfl, fun s hp hd => ?_⟩
  obtain ⟨p, hf⟩ := exists_framePattern hp
  have hexec := exec_due_inside hf (eventAt_zero (by simp [hd])) (by simp [hd])
  rw [pinWrite_lat0, hd] at hexec
  exact hexec

/-- Settles O8: slot `i` of the frame sends bit `i` of its pattern. -/
theorem serWritesTheSlotsBit : Obligations.SerWritesTheSlotsBit := by
  refine ⟨rfl, rfl, fun s i b hd hb => ?_⟩
  have hframe : ∃ p, framePattern s = some p ∧ p.getLsbD i.val = b := by
    rcases hb with ⟨hp, rfl⟩ | ⟨hp, rfl⟩
    · exact ⟨_, framePattern_eq_cpat.mpr ⟨hp, rfl⟩, by simp [Fin.ext_iff]⟩
    · exact ⟨_, framePattern_eq_clear.mpr hp, clearPattern_getLsbD _⟩
  obtain ⟨p, hf, rfl⟩ := hframe
  have hinstr : (if p.getLsbD i.val then Instr.ser1 else .ser0) = pinInstr ⟨.ser, p.getLsbD i.val⟩ := by
    cases p.getLsbD i.val <;> rfl
  rw [hinstr]
  exact exec_due_inside hf (eventAt_ser p hd) (by omega)

/-- Settles O9: the events of residue 2 are SCK1, and the clock idles low there. -/
theorem sck1ShiftsSerIntoSh : Obligations.Sck1ShiftsSerIntoSh := by
  refine ⟨rfl, fun s hp hd hsck => ?_, fun s h hd => inv_sck_low h (by omega)⟩
  obtain ⟨p, hf⟩ := exists_framePattern hp
  have hexec := exec_due_inside hf (eventAt_sck1 p hd) (by omega)
  rw [pinWrite_sck1 hsck, shiftIn_eq] at hexec
  exact hexec

/-- Settles O10: the events at the multiples of 3 from 3 on are SCK0. -/
theorem sck0LowersTheClock : Obligations.Sck0LowersTheClock := by
  refine ⟨rfl, fun s hp hd h3 => ?_⟩
  obtain ⟨p, hf⟩ := exists_framePattern hp
  exact exec_due_inside hf (eventAt_sck0 p hd h3) (by omega)

/-- LAT1 in its place commits and ends the frame (T2, T9). -/
theorem exec_lat1_due {s : State} (hp : s.ph = .act ∨ s.ph = .dea) (hd : s.dpos.val = 25) (hlat : s.lat = false) :
    exec .lat1 s = .next (frameDone { s with lat := true, q := s.sh, since := 0 }) := by
  obtain ⟨p, hf⟩ := exists_framePattern hp
  have hexec := exec_due hf (eventAt_last hd)
  rw [frameAdvance_end (by simpa using hd), pinWrite_lat1 hlat] at hexec
  exact hexec

/-- Settles O11: the frame's end is T2 from ACT and T9 from DEA. -/
theorem lat1CommitsAndEndsTheFrame : Obligations.Lat1CommitsAndEndsTheFrame := by
  refine ⟨rfl, fun s h hd => h.lat_low (by simp [hd]), fun s hd hlat => ⟨fun hp => ?_, fun hp => ?_⟩⟩
  · rw [exec_lat1_due (.inl hp) (by simp [hd]) hlat, frameDone_act (by exact hp)]
  · rw [exec_lat1_due (.inr hp) (by simp [hd]) hlat, frameDone_dea (by exact hp)]

end Sys2Proof.Machine
end

section
/-! O12: what the device does at any pin event, and that nothing else reaches it (R134). -/

namespace Sys2Proof.Machine

/-- The end of a frame moves the position and nothing else. -/
theorem frameDone_eq_position (s : State) :
    frameDone s = { s with ph := (frameDone s).ph, dpos := (frameDone s).dpos, stl := (frameDone s).stl } := by
  unfold frameDone; split <;> rfl

theorem frameAdvance_eq_position (s : State) :
    frameAdvance s = { s with
      ph := (frameAdvance s).ph, dpos := (frameAdvance s).dpos, stl := (frameAdvance s).stl } := by
  unfold frameAdvance
  split
  · rfl
  · exact frameDone_eq_position s

/-- Due or not, a pin event is its write, but for the position. -/
theorem pinOp_eq_position (e : PinEvent) (s : State) :
    pinOp e s = { pinWrite e s with ph := (pinOp e s).ph, dpos := (pinOp e s).dpos, stl := (pinOp e s).stl } := by
  by_cases hdue : dueEvent s = some e
  · rw [pinOp_due hdue]
    exact frameAdvance_eq_position _
  · rw [pinOp_not_due hdue]

theorem pinWrite_sh_eq (e : PinEvent) (s : State) :
    (pinWrite e s).sh = if e = ⟨.sck, true⟩ ∧ s.sck = false then shiftIn s.ser s.sh else s.sh := by
  rcases e with ⟨_ | _ | _, _ | _⟩ <;> simp [pinWrite]

theorem pinWrite_q_eq (e : PinEvent) (s : State) :
    (pinWrite e s).q = if e = ⟨.lat, true⟩ ∧ s.lat = false then s.sh else s.q := by
  rcases e with ⟨_ | _ | _, _ | _⟩ <;> simp [pinWrite]

theorem pinWrite_since_eq (e : PinEvent) (s : State) :
    (pinWrite e s).since = if e = ⟨.lat, true⟩ ∧ s.lat = false then 0 else s.since + 1 := by
  rcases e with ⟨_ | _ | _, _ | _⟩ <;> simp [pinWrite]

/-- The line named takes the level written, the other two stay. -/
theorem pinWrite_eq_levels (e : PinEvent) (s : State) :
    pinWrite e s = { s with
      ser := if e.line = .ser then e.level else s.ser, sck := if e.line = .sck then e.level else s.sck,
      lat := if e.line = .lat then e.level else s.lat, sh := (pinWrite e s).sh, q := (pinWrite e s).q,
      since := (pinWrite e s).since } := by
  obtain ⟨line, level⟩ := e
  cases line <;> rfl

/-- TICK, SMP and YIELD leave the device, in their place and away from it. -/
theorem device_exec_tick {c : Col} {s t : State} (h : exec (.tick c) s = .next t) : t.sh = s.sh ∧ t.q = s.q := by
  by_cases hplace : s.ph = .stl ∧ s.col = c
  · obtain ⟨hp, rfl⟩ := hplace
    rw [exec_tick_place hp] at h
    cases h
    cases s.level <;> simp
  · rw [exec_tick_away hplace] at h
    cases h
    exact ⟨rfl, rfl⟩

theorem device_exec_smp {c : Col} {r : Row} {s t : State} (h : exec (.smp c r) s = .next t) :
    t.sh = s.sh ∧ t.q = s.q := by
  by_cases hplace : s.ph = .smp ∧ s.col = c ∧ s.row = r
  · obtain ⟨hp, rfl, rfl⟩ := hplace
    rw [exec_smp_place hp] at h
    cases h
    simp
  · rw [exec_smp_away hplace] at h
    cases h
    exact ⟨rfl, rfl⟩

theorem device_exec_yield {s t : State} (h : exec .yield s = .next t) : t.sh = s.sh ∧ t.q = s.q := by
  by_cases hclock : s.last ≤ s.inp.now
  · by_cases hp : s.ph = .idle
    · rw [exec_yield_place hp hclock] at h
      cases h
      simp
    · rw [exec_yield_outsideIdle hp hclock] at h
      split at h
      · cases h
      · cases h; exact ⟨rfl, rfl⟩
  · rw [exec_yield_clockWentBack (Nat.lt_of_not_le hclock)] at h
    cases h

/-- Settles O12: a pin event is its write, but for the position, and the write reaches the device at its two edges only. -/
theorem deviceReactsToTwoEdgesOnly : Obligations.DeviceReactsToTwoEdgesOnly := by
  refine ⟨fun e s => ⟨pinOp e s, exec_pinInstr e s, ?_⟩, fun i c r s t hi h => ?_⟩
  · rw [pinOp_eq_position, ← shiftIn_eq]
    exact ⟨pinWrite_sh_eq e s, pinWrite_q_eq e s, pinWrite_since_eq e s, by rw [pinWrite_eq_levels]⟩
  · rcases hi with rfl | rfl | rfl
    · exact device_exec_tick h
    · exact device_exec_smp h
    · exact device_exec_yield h

end Sys2Proof.Machine
end

section
/-! O13 to O15 and O17: whole frames, in their place and away from it (R127, R128, R133). -/

namespace Sys2Proof.Machine

/-! ### The frame operation -/

/-- The frame the scanner sends ends its phase (T1+T2, T8+T9). -/
theorem frameOp_place {p : Byte} {s : State} (h : framePattern s = some p) : frameOp p s = frameDone (transmit p s) := by
  rw [frameOp, if_pos h]

theorem frameOp_away {p : Byte} {s : State} (h : framePattern s ≠ some p) : frameOp p s = transmit p s := by
  rw [frameOp, if_neg h]

/-- TRANSMIT of a column's pattern, from a low clock (R127). -/
theorem transmit_cpat (c : Col) {s : State} (h : s.sck = false) :
    transmit (cpat c) s = { s with
      ser := decide (c.val = 7), sck := false, lat := true, sh := 1#8 <<< c.val, q := 1#8 <<< c.val, since := 0 } := by
  have hser : (cpat c).getLsbD 7 = decide (c.val = 7) := by simp only [cpat_getLsbD, eq_comm]
  rw [transmit_eq _ _ h, hser, cpat]

/-- TRANSMIT of the clear pattern, from a low clock (R128). -/
theorem transmit_clear {s : State} (h : s.sck = false) :
    transmit clearPattern s = { s with ser := false, sck := false, lat := true, sh := 0#8, q := 0#8, since := 0 } := by
  rw [transmit_eq _ _ h, clearPattern_getLsbD, clearPattern]

theorem exec_clr (s : State) : exec .clr s = .next (frameOp clearPattern s) := rfl

/-- Settles O13: in its place ACT c is its transmission and the end of the ACT frame. -/
theorem actFrameDrivesOneColumn : Obligations.ActFrameDrivesOneColumn := by
  intro c s hp hc hsck
  rw [exec_actInstr, frameOp_place (framePattern_eq_cpat.mpr ⟨hp, hc⟩), transmit_cpat c hsck, frameDone_act (by exact hp)]

/-- Settles O14: in its place CLR is its transmission and the end of the DEA frame. -/
theorem clrDropsEveryColumn : Obligations.ClrDropsEveryColumn := by
  intro s hp hsck
  rw [exec_clr, frameOp_place (framePattern_eq_clear.mpr hp), transmit_clear hsck, frameDone_dea (by exact hp)]

/-- Settles O15: away from its place a frame is its transmission alone. -/
theorem framesAwayFromTheirPlace : Obligations.FramesAwayFromTheirPlace := by
  refine ⟨fun c s haway hsck => ?_, fun s haway hsck => ?_⟩
  · rw [exec_actInstr, frameOp_away (mt framePattern_eq_cpat.mp haway), transmit_cpat c hsck]
  · rw [exec_clr, frameOp_away (mt framePattern_eq_clear.mp haway), transmit_clear hsck]

/-! ### A frame repeated (R133) -/

theorem framePattern_frameDone {s : State} {p : Byte} (h : framePattern s = some p) : framePattern (frameDone s) = none := by
  rcases driverPhase_of_framePattern h with hp | hp
  · rw [frameDone_act hp]; rfl
  · rw [frameDone_dea hp]; rfl

/-- TRANSMIT writes neither the phase nor the column that the scanner's frame is told by. -/
@[simp] theorem framePattern_transmit (p : Byte) (s : State) : framePattern (transmit p s) = framePattern s := by
  simp only [framePattern, transmit_ph, transmit_col]

/-- After a frame the scanner is not about to send that frame. -/
theorem framePattern_frameOp (p : Byte) (s : State) : framePattern (frameOp p s) ≠ some p := by
  by_cases hf : framePattern s = some p
  · rw [frameOp_place hf, framePattern_frameDone (p := p) (by simpa using hf)]
    nofun
  · rwa [frameOp_away hf, framePattern_transmit]

/-- A transmission leaves the lines and the device as sending the same byte again would. -/
theorem transmit_transmit (p : Byte) {s : State} (h : s.sck = false) : transmit p (transmit p s) = transmit p s := by
  rw [transmit_eq p s h, transmit_eq p _ rfl]

/-- The end of a frame commutes with a transmission, which leaves the phase and the parameters. -/
theorem transmit_frameDone (p : Byte) {s : State} (h : s.sck = false) :
    transmit p (frameDone s) = frameDone (transmit p s) := by
  rw [transmit_eq p s h, transmit_eq p _ (by simpa using h)]
  cases hp : s.ph <;> simp [frameDone, hp]

/-- A second frame of the same pattern changes nothing that the first one left. -/
theorem frameOp_frameOp (p : Byte) {s : State} (h : s.sck = false) : frameOp p (frameOp p s) = frameOp p s := by
  rw [frameOp_away (framePattern_frameOp p s)]
  have hsck : (transmit p s).sck = false := by rw [transmit_eq p s h]
  by_cases hf : framePattern s = some p
  · rw [frameOp_place hf, transmit_frameDone p hsck, transmit_transmit p h]
  · rw [frameOp_away hf, transmit_transmit p h]

/-! ### A read with no key pressed (S-7) -/

/-- With no contact closed no row touches a column. -/
theorem touchedRows_of_open {k : Keys} (h : ∀ c r, closed k c r = false) (cs : List Col) : touchedRows k cs = [] := by
  simp [touchedRows, h]

/-- With no key pressed a settled, unstuck line reads false on either kind of matrix, whatever Q is (R164, R165 (a)). -/
theorem pinRead_of_open {r : Row} {s : State} (hstuck : s.par.stuck.get r = .none) (hs : settled s = true)
    (hopen : ∀ c r', closed s.inp.keys c r' = false) : pinRead r s = false := by
  cases hm : s.par.matrixKind with
  | isolated => simp [pinRead_isolated hstuck hs hm, isolatedLevel, hopen]
  | unisolated => simp [pinRead_unisolated hstuck hs hm, unisolatedLevel, reachable, touchedRows_of_open hopen]

/-- Settles O17: a frame repeated is the frame; a clear in SMP leaves the phase, the parameters and K, which alone the read
depends on while no contact is closed. -/
theorem repeatedFrameChangesNothing : Obligations.RepeatedFrameChangesNothing := by
  refine ⟨fun s hsck => ⟨_, exec_clr s, ?_⟩, fun r s t n hp hsince hn hstuck hopen hexec => ⟨?_, ?_⟩,
    fun c s hsck => ⟨_, exec_actInstr c s, ?_⟩⟩
  · rw [exec_clr, frameOp_frameOp _ hsck]
  · exact pinRead_of_open hstuck (settled_iff.mpr ⟨hp, hsince⟩) hopen
  · rw [exec_clr, frameOp_away (mt framePattern_eq_clear.mp (by simp [hp]))] at hexec
    cases hexec
    have hsettled : settled { transmit clearPattern s with since := n } = true :=
      settled_iff.mpr ⟨by simpa using hp, by simpa using hn⟩
    exact pinRead_of_open (by simpa using hstuck) hsettled (by simpa using hopen)
  · rw [exec_actInstr, frameOp_frameOp _ hsck]

end Sys2Proof.Machine
end

section
/-! O16: the lines and Q after each of the first events of a frame (R129). -/

namespace Sys2Proof.Machine

/-- The lines and the device after the first `k` events of `TRANSMIT(p)`. -/
def afterEvents (p : Byte) (k : Nat) (s : State) : State := ((frameEvents p).take k).foldl (fun t e => pinWrite e t) s

theorem afterEvents_zero (p : Byte) (s : State) : afterEvents p 0 s = s := rfl

theorem afterEvents_all (p : Byte) (s : State) : afterEvents p 26 s = transmit p s := rfl

/-- The events are written one by one (R121). -/
theorem afterEvents_succ (p : Byte) (d : FramePos) (s : State) :
    afterEvents p (d.val + 1) s = pinWrite (eventAt p d) (afterEvents p d.val s) := by
  rw [afterEvents, List.take_add_one, frameEvents_getElem, List.foldl_append]
  rfl

/-- No event before the last commits (R129 (a)). -/
theorem afterEvents_q (p : Byte) {k : Nat} (hk : k ≤ 25) (s : State) : (afterEvents p k s).q = s.q := by
  induction k with
  | zero => rfl
  | succ k ih => rw [afterEvents_succ p ⟨k, by omega⟩, q_of_eventAt (by simp; omega), ih (by omega)]

/-- SCK takes the level of the slot's clock event, and is left by LAT0, SER and LAT1. -/
theorem pinWrite_eventAt_sck (p : Byte) (d : FramePos) (s : State) :
    (pinWrite (eventAt p d) s).sck = if d.val = 0 ∨ d.val % 3 = 1 then s.sck else decide (d.val % 3 = 2) := by
  by_cases h0 : d.val = 0
  · simp [eventAt_zero h0, pinWrite_lat0, h0]
  by_cases h25 : d.val = 25
  · simp [eventAt_last h25, pinWrite, h25]
  · simpa only [h0, false_or] using (lines_of_eventAt_inside h0 h25).2

/-- LAT is written by the first and the last event of a frame. -/
theorem pinWrite_eventAt_lat (p : Byte) (d : FramePos) (s : State) :
    (pinWrite (eventAt p d) s).lat = if d.val = 0 then false else if d.val = 25 then true else s.lat := by
  by_cases h0 : d.val = 0
  · simp [eventAt_zero h0, pinWrite_lat0, h0]
  by_cases h25 : d.val = 25
  · simp [eventAt_last h25, pinWrite, h25]
  · simpa only [h0, h25, if_false] using (lines_of_eventAt_inside h0 h25).1

/-- From a low clock SCK is high exactly after the SCK1 of each bit. -/
theorem afterEvents_sck (p : Byte) {k : Nat} (hk : k ≤ 26) {s : State} (h : s.sck = false) :
    (afterEvents p k s).sck = decide (k % 3 = 0 ∧ k ≠ 0) := by
  induction k with
  | zero => simpa [afterEvents_zero] using h
  | succ k ih =>
    rw [afterEvents_succ p ⟨k, by omega⟩, pinWrite_eventAt_sck, ih (by omega)]
    split <;> exact decide_eq_decide.mpr (by simp only at *; omega)

/-- LAT is low from the first event to the last. -/
theorem afterEvents_lat (p : Byte) {k : Nat} (h1 : 1 ≤ k) (hk : k ≤ 25) (s : State) : (afterEvents p k s).lat = false := by
  induction k, h1 using Nat.le_induction with
  | base => rfl
  | succ k h1 ih =>
    have h0 : k ≠ 0 := by omega
    have h25 : k ≠ 25 := by omega
    rw [afterEvents_succ p ⟨k, by omega⟩, pinWrite_eventAt_lat]
    simpa only [h0, h25, if_false] using ih (by omega)

/-- SCK rises at the SCK1 of each bit, and nowhere else (R129 (c)). -/
theorem sck_rises_eq (p : Byte) (d : FramePos) {s : State} (h : s.sck = false) :
    (!(afterEvents p d.val s).sck && (afterEvents p (d.val + 1) s).sck) = decide (d.val % 3 = 2) := by
  rw [afterEvents_sck p (by omega) h, afterEvents_sck p (by omega) h, ← decide_not, ← Bool.decide_and]
  exact decide_eq_decide.mpr (by omega)

/-- LAT rises at the frame's last event only (R129 (c)). -/
theorem lat_rises_eq (p : Byte) (d : FramePos) (s : State) :
    (!(afterEvents p d.val s).lat && (afterEvents p (d.val + 1) s).lat) = decide (d.val = 25) := by
  rw [afterEvents_succ, pinWrite_eventAt_lat]
  by_cases h25 : d.val = 25
  · simp [h25, afterEvents_lat p (k := 25)]
  · by_cases h0 : d.val = 0 <;> simp [h0, h25]

/-- Settles O16: Q, SCK and LAT after any number of its events; the whole frame is `transmit_eq`. -/
theorem transmitCommitsAnyByte : Obligations.TransmitCommitsAnyByte := by
  intro p s hsck
  have hscks : (List.range 26).filter (fun k => !(afterEvents p k s).sck && (afterEvents p (k + 1) s).sck)
      = (List.range 26).filter fun k => decide (k % 3 = 2) :=
    List.filter_congr fun k hk => sck_rises_eq p ⟨k, List.mem_range.mp hk⟩ hsck
  have hlats : (List.range 26).filter (fun k => !(afterEvents p k s).lat && (afterEvents p (k + 1) s).lat)
      = (List.range 26).filter fun k => decide (k = 25) :=
    List.filter_congr fun k hk => lat_rises_eq p ⟨k, List.mem_range.mp hk⟩ s
  refine ⟨fun k hk => afterEvents_q p hk s, transmit_eq p s hsck, ?_, ?_⟩
  · exact congrArg List.length hscks
  · exact congrArg List.length hlats

end Sys2Proof.Machine
end

section
/-! O49: 26 steps at L0 and one at L1 from the start of a frame (R12, R129). Each L0 step of a driver phase writes the event at
DPOS; what a step adds around it (inputs, count, trace) the lines never see. -/

namespace Sys2Proof.Machine

/-- Every run keeps the invariants of the state. -/
theorem inv_stepN {n : Nat} {s t : State} (h : Inv s) (hrun : stepN n s = .next t) : Inv t := by
  induction n generalizing s with
  | zero => cases hrun; exact h
  | succ n ih =>
    cases hs : step s with
    | next u => exact ih (stepKeepsTheStateInvariants s u h hs) (stepN_succ n hs ▸ hrun)
    | fault f => simp [stepN, hs] at hrun
    | refused r => simp [stepN, hs] at hrun

/-! ### A step of a driver phase -/

/-- The frame of a driver phase, by the phase (R182, R186). -/
theorem framePattern_cases {s : State} {p : Byte} (h : framePattern s = some p) :
    (s.ph = .act ∧ p = cpat s.col) ∨ (s.ph = .dea ∧ p = clearPattern) := by
  rcases driverPhase_of_framePattern h with hp | hp
  · exact .inl ⟨hp, by simpa [framePattern, hp] using h.symm⟩
  · exact .inr ⟨hp, by simpa [framePattern, hp] using h.symm⟩

/-- In a driver phase the step runs the phase's word: the event at DPOS at L0, the whole frame at L1 (R182, R186). -/
theorem step_driver {s : State} {p : Byte} (h : Inv s) (hf : framePattern s = some p) :
    step s = .next (endStep s (match s.level with
      | .l0 => frameAdvance (pinWrite (eventAt p s.dpos) s)
      | .l1 => frameDone (transmit p s))) := by
  have hrow : s.ph ≠ .smp → s.row = 0 := inv_row_zero h
  rcases framePattern_cases hf with ⟨hp, rfl⟩ | ⟨hp, rfl⟩
  · exact step_next_iff.mpr ⟨_, _, fetch_act hp (hrow (by simp [hp])), exec_actC_place hp, rfl⟩
  · have hcol : s.col = 0 := of_not_not fun hne => by simpa [hp] using h.col_phase hne
    exact step_next_iff.mpr ⟨_, _, fetch_dea hp hcol (hrow (by simp [hp])), exec_dea_place hp, rfl⟩

theorem step_pinEvent {s : State} {p : Byte} (h : Inv s) (hf : framePattern s = some p) (hl : s.level = .l0) :
    step s = .next (endStep s (frameAdvance (pinWrite (eventAt p s.dpos) s))) := by
  rw [step_driver h hf, hl]

theorem step_frame {s : State} {p : Byte} (h : Inv s) (hf : framePattern s = some p) (hl : s.level = .l1) :
    step s = .next (endStep s (frameDone (transmit p s))) := by
  rw [step_driver h hf, hl]

/-! ### The steps of a frame at L0 -/

/-- The label of a pin event's step is the event (R181). -/
theorem eventOf_driver {s : State} {p : Byte} (hf : framePattern s = some p) (hl : s.level = .l0) :
    eventOf s = .pin (eventAt p s.dpos) := by
  rcases framePattern_cases hf with ⟨hp, rfl⟩ | ⟨hp, rfl⟩ <;> simp [eventOf, hl, hp]

/-- A pin event neither reads nor writes DPOS, the inputs, the count of steps and the trace. -/
theorem pinWrite_bookkeeping (e : PinEvent) (s : State) (d : FramePos) (i : Inputs) (n : Nat) (es : List Event) :
    pinWrite e { s with dpos := d, inp := i, tick := n, trace := es }
      = { pinWrite e s with dpos := d, inp := i, tick := n, trace := es } := by
  obtain ⟨line, level⟩ := e
  cases line <;> rfl

/-- Moving the position on and what every step adds do not meet. -/
theorem endStep_frameAdvance (s t : State) : endStep s (frameAdvance t) = frameAdvance (endStep s t) := by
  by_cases hd : t.dpos.val < 25
  · rw [frameAdvance_inside hd, frameAdvance_inside (by exact hd)]
    rfl
  · have h25 : t.dpos.val = 25 := by omega
    rw [frameAdvance_end h25, frameAdvance_end (by exact h25)]
    cases hp : t.ph <;> simp [frameDone, endStep, hp]

/-- The labels of a frame's first `k` events, newest first as in the trace. -/
def frameLabels (p : Byte) (k : Nat) : List Event := (((frameEvents p).take k).map .pin).reverse

theorem frameLabels_succ (p : Byte) (d : FramePos) : frameLabels p (d.val + 1) = .pin (eventAt p d) :: frameLabels p d.val := by
  simp [frameLabels, List.take_add_one, frameEvents_getElem]

/-- The run after `k` events of the frame of pattern `p` that began in `s`, at position `d` and with some inputs. -/
def frameRun (p : Byte) (k : Nat) (d : FramePos) (i : Inputs) (s : State) : State :=
  { afterEvents p k s with dpos := d, inp := i, tick := s.tick + k, trace := frameLabels p k ++ s.trace }

theorem frameRun_zero (p : Byte) {s : State} (hd : s.dpos = 0) : frameRun p 0 0 s.inp s = s := by
  cases s
  subst hd
  rfl

/-- The scanner's frame is told by the phase and the column, which the frame's events leave. -/
theorem framePattern_frameRun (p : Byte) (k : Nat) (d : FramePos) (i : Inputs) (s : State) :
    framePattern (frameRun p k d i s) = framePattern s := by
  simp only [framePattern, frameRun, afterEvents, pinWrites_ph, pinWrites_col]

theorem frameRun_level (p : Byte) (k : Nat) (d : FramePos) (i : Inputs) (s : State) :
    (frameRun p k d i s).level = s.level := pinWrites_level _ s

/-- One step at L0 of a frame: the event at the position is one more event written, and the position moves on. -/
theorem step_frameRun {s : State} {p : Byte} {d : FramePos} {i : Inputs} (h : Inv (frameRun p d.val d i s))
    (hf : framePattern s = some p) (hl : s.level = .l0) :
    ∃ i', step (frameRun p d.val d i s) = .next (frameAdvance (frameRun p (d.val + 1) d i' s)) := by
  have hf' := (framePattern_frameRun p d.val d i s).trans hf
  have hl' := (frameRun_level p d.val d i s).trans hl
  refine ⟨nextInputs (s.tick + d.val + 1) i, ?_⟩
  rw [step_pinEvent h hf' hl', endStep_frameAdvance, endStep, eventOf_driver hf' hl']
  simp only [frameRun, pinWrite_bookkeeping, afterEvents_succ, frameLabels_succ]
  rfl

/-- A frame at L0 is at position `d` after `d` steps (T1, T8). -/
theorem stepN_frameRun {s : State} {p : Byte} (h : Inv s) (hf : framePattern s = some p) (hl : s.level = .l0)
    (hd : s.dpos = 0) (d : FramePos) : ∃ i, stepN d.val s = .next (frameRun p d.val d i s) := by
  induction d using Fin.induction with
  | zero => exact ⟨s.inp, congrArg Host.Outcome.next (frameRun_zero p hd).symm⟩
  | succ d ih =>
    obtain ⟨i, hrun⟩ := ih
    obtain ⟨i', hstep⟩ := step_frameRun (inv_stepN h hrun) hf hl
    have hnext : frameAdvance (frameRun p (d.val + 1) d.castSucc i' s) = frameRun p (d.val + 1) d.succ i' s := by
      rw [frameAdvance_inside (by exact d.isLt), ← Fin.coeSucc_eq_succ]
      rfl
    exact ⟨i', by rw [Fin.val_succ, stepN_add d.val 1 hrun, stepN_succ 0 hstep, ← hnext]; rfl⟩

/-- The 26 steps of a frame at L0 write all its events and end its phase (T1 and T2, T8 and T9). -/
theorem stepN_frame {s : State} {p : Byte} (h : Inv s) (hf : framePattern s = some p) (hl : s.level = .l0)
    (hd : s.dpos = 0) : ∃ i, stepN 26 s = .next (frameDone (frameRun p 26 25 i s)) := by
  obtain ⟨i, hrun⟩ := stepN_frameRun h hf hl hd 25
  obtain ⟨i', hstep⟩ := step_frameRun (inv_stepN h hrun) hf hl
  exact ⟨i', by rw [stepN_add 25 1 hrun, stepN_succ 0 hstep, frameAdvance_end rfl]; rfl⟩

/-! ### The two levels -/

/-- At the start of a frame the invariants do not depend on the level. -/
theorem inv_atL1 {s : State} (h : Inv s) (hd : s.dpos = 0) : Inv { s with level := .l1 } :=
  { h with l1_whole := fun _ => hd }

/-- Settles O49: both levels end in the lines that TRANSMIT leaves and the position after the frame. -/
theorem twentySixPinEventsAreOneFrame : Obligations.TwentySixPinEventsAreOneFrame := by
  intro s h hl hd hp
  obtain ⟨p, hf⟩ := exists_framePattern hp
  have hsck : s.sck = false := inv_sck_low h (.inl (by simp [hd]))
  obtain ⟨i, hrun⟩ := stepN_frame h hf hl hd
  refine ⟨_, _, hrun, step_frame (inv_atL1 h hd) hf rfl, ?_⟩
  rw [frameRun, afterEvents_all, transmit_eq p s hsck, transmit_eq p _ (by exact hsck)]
  rcases hp with hp | hp
  · rw [frameDone_act (by exact hp), frameDone_act (by exact hp)]
    constructor <;> rfl
  · rw [frameDone_dea (by exact hp), frameDone_dea (by exact hp)]
    constructor <;> rfl

end Sys2Proof.Machine
end

section
/-! O23, O24, O25: what SMP reads from a stuck, an unsettled and an isolated row line (R162, R164, R166, R167). SMP writes what
`pinRead` answers; each claim is one case of that read. -/

namespace Sys2Proof.Machine

/-- SMP answers in every state, and the entry it names then holds the level read, at its place and away from it (R184, R210). -/
theorem exec_smp_read (c : Col) (r : Row) (s : State) :
    ∃ t, exec (.smp c r) s = .next t ∧ tblRead c r t = pinRead r s := by
  have hread : ∀ t : State, t.snap = (tblWrite c r (pinRead r s) s).snap → tblRead c r t = pinRead r s := fun t ht => by
    rw [tblRead_congr ht, tblRead_tblWrite, if_pos ⟨rfl, rfl⟩]
  by_cases hplace : s.ph = .smp ∧ s.col = c ∧ s.row = r
  · obtain ⟨hp, rfl, rfl⟩ := hplace
    exact ⟨_, exec_smp_place hp, hread _ (by simp)⟩
  · exact ⟨_, exec_smp_away hplace, hread _ rfl⟩

/-- A step changes no parameter (R6). -/
theorem step_par {s t : State} (h : step s = .next t) : t.par = s.par := by
  obtain ⟨u, hu, rfl⟩ := step_effect h
  exact (effect_par_level hu).1

/-- Settles O23: the stuck cases come first in the read, and no step writes the parameters. -/
theorem stuckRowReadsItsLevel : Obligations.StuckRowReadsItsLevel := by
  refine ⟨fun c r s => ?_, fun _ _ => step_par⟩
  obtain ⟨t, hexec, hread⟩ := exec_smp_read c r s
  exact ⟨fun h => ⟨t, hexec, hread.trans (pinRead_high h)⟩, fun h => ⟨t, hexec, hread.trans (pinRead_low h)⟩⟩

/-- Outside SMP, and in it before the delay has passed, the lines are unsettled (R40, R162). -/
theorem settled_eq_false {s : State} (h : s.ph ≠ .smp ∨ s.since < s.par.settleTicks) : settled s = false := by
  refine Bool.eq_false_iff.mpr fun hs => ?_
  obtain ⟨hp, hsince⟩ := settled_iff.mp hs
  exact h.elim (· hp) (Nat.not_lt.mpr hsince)

/-- Settles O24: neither premise looks at the inputs, and the unsettled read is the draw alone. -/
theorem unsettledReadIsADraw : Obligations.UnsettledReadIsADraw := by
  intro c r s k b hstuck hunsettled
  obtain ⟨t, hexec, hread⟩ := exec_smp_read c r { s with inp := { s.inp with keys := k, draw := b } }
  exact ⟨t, hexec, hread.trans (pinRead_unsettled hstuck (settled_eq_false hunsettled))⟩

theorem isolatedLevel_iff {q : Byte} {k : Keys} {r : Row} :
    isolatedLevel q k r = true ↔ ∃ c : Col, q.getLsbD c.val = true ∧ closed k c r = true := by
  simp [isolatedLevel, mem_allCols]

theorem isolatedLevel_zero (k : Keys) (r : Row) : isolatedLevel 0#8 k r = false := by simp [isolatedLevel]

/-- Settles O25: the settled read is the OR of R164, taken at any Q, at CPAT[c'] and at 0. -/
theorem isolatedRowIsTheOrOfItsColumns : Obligations.IsolatedRowIsTheOrOfItsColumns := by
  intro c r s hp hsince hstuck hkind
  obtain ⟨t, hexec, hread⟩ := exec_smp_read c r s
  rw [pinRead_isolated hstuck (settled_iff.mpr ⟨hp, hsince⟩) hkind] at hread
  refine ⟨t, hexec, ?_, fun c' hq => ?_, fun hq => ?_⟩
  · rw [hread]; exact isolatedLevel_iff
  · rw [hread, hq]; exact isolatedLevel_cpat c' s.inp.keys r
  · rw [hread, hq, isolatedLevel_zero]

end Sys2Proof.Machine
end

section
/-! O26: the unisolated matrix (R165). The rounds of `spread` only add columns, and there are eight columns, so the eighth round
is closed under closed contacts; hence the columns it holds are those at the end of a path. -/

namespace Sys2Proof.Machine

/-! ### The rounds of `spread` -/

theorem spread_succ (k : Keys) (n : Nat) (cs : List Col) : spread k (n + 1) cs = spreadOnce k (spread k n cs) := by
  induction n generalizing cs with
  | zero => rfl
  | succ n ih => exact ih (spreadOnce k cs)

/-- The columns of round `n`, as a set. -/
def spreadCols (k : Keys) (cs : List Col) (n : Nat) : Finset Col := (spread k n cs).toFinset

theorem mem_spreadCols {k : Keys} {cs : List Col} {n : Nat} {c : Col} : c ∈ spreadCols k cs n ↔ c ∈ spread k n cs :=
  List.mem_toFinset

theorem mem_spreadCols_succ {k : Keys} {cs : List Col} {n : Nat} {c : Col} :
    c ∈ spreadCols k cs (n + 1) ↔
      c ∈ spreadCols k cs n ∨ ∃ r, (∃ c' ∈ spreadCols k cs n, closed k c' r = true) ∧ closed k c r = true := by
  simp only [mem_spreadCols, spread_succ, mem_spreadOnce, mem_touchedRows]

theorem spreadCols_subset_succ (k : Keys) (cs : List Col) (n : Nat) : spreadCols k cs n ⊆ spreadCols k cs (n + 1) :=
  fun _ hc => mem_spreadCols_succ.mpr (.inl hc)

/-- A round depends on the set of columns before it only, so once a round adds nothing the next adds nothing. -/
theorem spreadCols_stays {k : Keys} {cs : List Col} {n : Nat} (h : spreadCols k cs n = spreadCols k cs (n + 1)) :
    spreadCols k cs (n + 1) = spreadCols k cs (n + 2) := by
  ext c
  rw [mem_spreadCols_succ, mem_spreadCols_succ (n := n + 1), h]

/-- The ninth round adds nothing: the number of columns grows until a round adds none, and it is at most eight. -/
theorem spreadCols_nine (k : Keys) (cs : List Col) : spreadCols k cs 9 = spreadCols k cs 8 := by
  have hgrow := spreadCols_subset_succ k cs
  have hsame : ∀ n, (spreadCols k cs n).card = (spreadCols k cs (n + 1)).card → spreadCols k cs n = spreadCols k cs (n + 1) :=
    fun n hcard => Finset.eq_of_subset_of_card_le (hgrow n) hcard.ge
  have hcard : (spreadCols k cs 9).card = (spreadCols k cs 8).card :=
    Nat.stabilises_of_monotone (f := fun n => (spreadCols k cs n).card)
      (monotone_nat_of_le_succ fun n => Finset.card_le_card (hgrow n))
      (fun n => card_finset_fin_le (spreadCols k cs n))
      (fun n hn => congrArg Finset.card (spreadCols_stays (hsame n hn))) (by omega)
  exact (hsame 8 hcard.symm).symm

/-- So the eighth round is closed under paths of two closed contacts. -/
theorem mem_spread_eight_of_closed {k : Keys} {cs : List Col} {c : Col} {r : Row}
    (hr : r ∈ touchedRows k (spread k 8 cs)) (hc : closed k c r = true) : c ∈ spread k 8 cs := by
  rw [← mem_spreadCols, ← spreadCols_nine, mem_spreadCols, spread_succ]
  exact mem_spreadOnce.mpr (.inr ⟨r, hr, hc⟩)

/-! ### Reachability is the existence of a path -/

/-- The high column lines. -/
def highCols (q : Byte) : List Col := allCols.filter fun c => q.getLsbD c.val

theorem mem_highCols {q : Byte} {c : Col} : c ∈ highCols q ↔ q.getLsbD c.val = true := by simp [highCols, mem_allCols]

/-- A wire that the eighth round from the high columns holds: a column of it, or a row that a closed contact joins to one. -/
def Spreads (q : Byte) (k : Keys) : Wire → Prop
  | .col c => c ∈ spread k 8 (highCols q)
  | .row r => r ∈ touchedRows k (spread k 8 (highCols q))

theorem subset_spread (k : Keys) (n : Nat) {cs : List Col} {c : Col} (h : c ∈ cs) : c ∈ spread k n cs := by
  induction n with
  | zero => exact h
  | succ n ih => rw [spread_succ]; exact mem_spreadOnce.mpr (.inl ih)

theorem spreads_of_path {q : Byte} {k : Keys} {w : Wire} (h : Path q k w) : Spreads q k w := by
  induction h with
  | high c hq => exact subset_spread k 8 (mem_highCols.mpr hq)
  | toRow c r _ hc ih => exact mem_touchedRows.mpr ⟨c, ih, hc⟩
  | toCol c r _ hc ih => exact mem_spread_eight_of_closed ih hc

theorem path_of_mem_spread {q : Byte} {k : Keys} (n : Nat) {c : Col} (h : c ∈ spread k n (highCols q)) :
    Path q k (.col c) := by
  induction n generalizing c with
  | zero => exact .high c (mem_highCols.mp h)
  | succ n ih =>
    rw [spread_succ, mem_spreadOnce] at h
    obtain hc | ⟨r, hr, hc⟩ := h
    · exact ih hc
    · obtain ⟨c', hc', hr⟩ := mem_touchedRows.mp hr
      exact .toCol c r (.toRow c' r (ih hc') hr) hc

/-- `reachable` is the path of closed contacts of R165. -/
theorem reachable_iff_path {q : Byte} {k : Keys} {r : Row} : reachable q k r = true ↔ Path q k (.row r) := by
  have hreach : reachable q k r = true ↔ r ∈ touchedRows k (spread k 8 (highCols q)) := List.contains_iff_mem
  rw [hreach]
  refine ⟨fun h => ?_, spreads_of_path⟩
  obtain ⟨c, hc, hr⟩ := mem_touchedRows.mp h
  exact .toRow c r (path_of_mem_spread 8 hc) hr

/-! ### The three levels of R165 -/

theorem soleContact_iff {q : Byte} {k : Keys} {r : Row} :
    soleContact q k r = true ↔ ∃ c : Col, q.getLsbD c.val = true ∧ closed k c r = true
      ∧ ∀ c' r', closed k c' r' = true → c' = c ∧ r' = r := by
  simp [soleContact, mem_allCols, mem_allRows, and_assoc, imp_iff_not_or]

theorem reachable_of_soleContact {q : Byte} {k : Keys} {r : Row} (h : soleContact q k r = true) :
    reachable q k r = true := by
  obtain ⟨c, hq, hc, -⟩ := soleContact_iff.mp h
  exact reachable_iff_path.mpr (.toRow c r (.high c hq) hc)

theorem unisolatedLevel_unreachable {q : Byte} {k : Keys} {r : Row} (h : ¬reachable q k r = true) (b : Bool) :
    unisolatedLevel q k b r = false := if_neg h

theorem unisolatedLevel_soleContact {q : Byte} {k : Keys} {r : Row} (h : soleContact q k r = true) (b : Bool) :
    unisolatedLevel q k b r = true := by
  rw [unisolatedLevel, if_pos (reachable_of_soleContact h), if_pos h]

theorem unisolatedLevel_drawn {q : Byte} {k : Keys} {r : Row} (hr : reachable q k r = true)
    (hs : ¬soleContact q k r = true) (b : Bool) : unisolatedLevel q k b r = b := by
  rw [unisolatedLevel, if_pos hr, if_neg hs]

/-- Settles O26: the settled read is the unisolated level, whose two conditions are the path and the sole contact of R165. -/
theorem unisolatedRowIsForcedOrDrawn : Obligations.UnisolatedRowIsForcedOrDrawn := by
  intro c r s hp hsince hstuck hkind
  obtain ⟨t, hexec, hread⟩ := exec_smp_read c r s
  rw [pinRead_unisolated hstuck (settled_iff.mpr ⟨hp, hsince⟩) hkind] at hread
  refine ⟨t, hexec, ?_⟩
  rw [hread, ← reachable_iff_path, ← soleContact_iff]
  exact ⟨(unisolatedLevel_unreachable · _), (unisolatedLevel_soleContact · _), (unisolatedLevel_drawn · · _)⟩

end Sys2Proof.Machine
end

section
/-! O18 to O21: the scanner's operations in their place (R182 to R184, R186), from what `exec` answers there. -/

namespace Sys2Proof.Machine

/-! ### The operations by level (R12) -/

/-- At L0 a driver phase's word writes the event due and moves on (T1, T2). -/
theorem exec_actC_l0 {s : State} (hl : s.level = .l0) (hp : s.ph = .act) :
    exec (.actC s.col) s = .next (frameAdvance (pinWrite (eventAt (cpat s.col) s.dpos) s)) := by
  rw [exec_actC_place hp, hl]

theorem exec_actC_l1 {s : State} (hl : s.level = .l1) (hp : s.ph = .act) :
    exec (.actC s.col) s = .next (frameDone (transmit (cpat s.col) s)) := by
  rw [exec_actC_place hp, hl]

theorem exec_dea_l0 {s : State} (hl : s.level = .l0) (hp : s.ph = .dea) :
    exec .dea s = .next (frameAdvance (pinWrite (eventAt clearPattern s.dpos) s)) := by
  rw [exec_dea_place hp, hl]

theorem exec_dea_l1 {s : State} (hl : s.level = .l1) (hp : s.ph = .dea) :
    exec .dea s = .next (frameDone (transmit clearPattern s)) := by
  rw [exec_dea_place hp, hl]

theorem exec_tick_l0 {s : State} (hl : s.level = .l0) (hp : s.ph = .stl) :
    exec (.tick s.col) s = .next (settleTick s) := by
  rw [exec_tick_place hp, hl]

theorem exec_tick_l1 {s : State} (hl : s.level = .l1) (hp : s.ph = .stl) :
    exec (.tick s.col) s = .next (settleDone s) := by
  rw [exec_tick_place hp, hl]

/-- Settles O18: at L1 a driver phase is its transmission and the end of its frame. -/
theorem driverPhasesAtL1 : Obligations.DriverPhasesAtL1 := by
  intro s hl hsck
  refine ⟨fun hp => ?_, fun hp => ?_⟩
  · rw [exec_actC_l1 hl hp, transmit_cpat s.col hsck, frameDone_act (by exact hp)]
  · rw [exec_dea_l1 hl hp, transmit_clear hsck, frameDone_dea (by exact hp)]

/-! ### The position after one event of a frame (T1, T2, T8, T9) -/

theorem frameAdvance_position_inside {s : State} (h : s.dpos.val < 25) :
    (frameAdvance s).ph = s.ph ∧ (frameAdvance s).dpos.val = s.dpos.val + 1 ∧ (frameAdvance s).stl = s.stl := by
  rw [frameAdvance_inside h]
  exact ⟨rfl, Fin.val_add_one_of_lt (Fin.lt_def.mpr h), rfl⟩

theorem frameAdvance_position_act {s : State} (hp : s.ph = .act) (h : s.dpos.val = 25) :
    (frameAdvance s).ph = .stl ∧ (frameAdvance s).dpos.val = 0 ∧ (frameAdvance s).stl = s.par.settleTicks := by
  rw [frameAdvance_end h, frameDone_act hp]
  exact ⟨rfl, rfl, rfl⟩

theorem frameAdvance_position_dea {s : State} (hp : s.ph = .dea) (h : s.dpos.val = 25) :
    (frameAdvance s).ph = .idle ∧ (frameAdvance s).dpos.val = 0 ∧ (frameAdvance s).stl = s.stl := by
  rw [frameAdvance_end h, frameDone_dea hp]
  exact ⟨rfl, rfl, rfl⟩

/-- The event that a frame's list names at a position is the one of R121. -/
theorem eventAt_of_getElem {p : Byte} {d : FramePos} {e : PinEvent} (h : (frameEvents p)[d.val]? = some e) :
    eventAt p d = e := by
  rwa [frameEvents_getElem, Option.some.injEq] at h

/-- At L0 a driver phase's word is the operation of the event due (R182, R186). -/
theorem exec_actC_eq_pinInstr {s : State} {e : PinEvent} (hl : s.level = .l0) (hp : s.ph = .act)
    (he : eventAt (cpat s.col) s.dpos = e) : exec (.actC s.col) s = exec (pinInstr e) s := by
  rw [exec_actC_l0 hl hp, he, exec_due (framePattern_eq_cpat.mpr ⟨hp, rfl⟩) he]

theorem exec_dea_eq_pinInstr {s : State} {e : PinEvent} (hl : s.level = .l0) (hp : s.ph = .dea)
    (he : eventAt clearPattern s.dpos = e) : exec .dea s = exec (pinInstr e) s := by
  rw [exec_dea_l0 hl hp, he, exec_due (framePattern_eq_clear.mpr hp) he]

/-- Settles O19: the event due is written, and the position moves on as T1, T2, T8 and T9 say. -/
theorem driverPhasesAtL0 : Obligations.DriverPhasesAtL0 := by
  intro s e hl
  refine ⟨fun hp he => ?_, fun hp he => ?_⟩
  · refine ⟨exec_actC_eq_pinInstr hl hp (eventAt_of_getElem he), _, exec_actC_l0 hl hp, fun hd => ?_, fun hd => ?_⟩
    · simpa [hp] using frameAdvance_position_inside (s := pinWrite _ s) (by simpa using hd)
    · simpa using frameAdvance_position_act (s := pinWrite _ s) (by simpa using hp) (by simpa using hd)
  · refine ⟨exec_dea_eq_pinInstr hl hp (eventAt_of_getElem he), _, exec_dea_l0 hl hp, fun hd => ?_, fun hd => ?_⟩
    · simpa [hp] using frameAdvance_position_inside (s := pinWrite _ s) (by simpa using hd)
    · simpa using frameAdvance_position_dea (s := pinWrite _ s) (by simpa using hp) (by simpa using hd)

/-- Settles O20: the last tick and the whole Settle are `settleDone`, an earlier tick takes STL down. -/
theorem tickCountsSettleDown : Obligations.TickCountsSettleDown := by
  intro s hp
  refine ⟨fun hl hmore => ?_, fun hl hlast => ?_, fun hl => exec_tick_l1 hl hp⟩
  · rw [exec_tick_l0 hl hp, settleTick_more hmore]
  · rw [exec_tick_l0 hl hp, settleTick_end hlast.le, settleDone, hlast]

/-- Settles O21: the write of the sample, then T5, T6 or T7. -/
theorem sampleWritesAndAdvances : Obligations.SampleWritesAndAdvances := by
  intro s hp
  rw [exec_smp_place hp]
  refine ⟨fun hrow => ?_, fun hrow hcol => ?_, fun hrow hcol => ?_⟩
  · rw [sampleAdvance_row (by exact hrow)]
    rfl
  · have haddr : 9 * s.col.val + 8 = tblAddr s.col s.row := by rw [tblAddr, hrow]
    rw [sampleAdvance_column (by exact hrow) (by exact hcol), haddr]
    rfl
  · have haddr : 71 = tblAddr s.col s.row := by rw [tblAddr, hrow, hcol]
    rw [sampleAdvance_sweep (by exact hrow) (by exact hcol), haddr]
    rfl

end Sys2Proof.Machine
end

section
/-! O36 and O37: in a driver phase the step of the sequencer word is the step of the pin event at DPOS, or of the frame (R92, R95,
R181). -/

namespace Sys2Proof.Machine

/-- A step is the operation fetched, with what every step adds. -/
theorem step_eq_finish {s : State} {i : Instr} (h : fetch s = .ok i) : step s = finish s (exec i s) := by
  simp only [step, h]
  cases exec i s <;> rfl

/-- The label of a pin event is read as its operation (R95). -/
theorem decode_peLabel (e : PinEvent) : decode (.pe (peLabel e)) = .ok (pinInstr e) := by
  rcases e with ⟨_ | _ | _, _ | _⟩ <;> rfl

/-- The frame of a column is read as its operation (R92). -/
theorem decode_cpat (c : Col) : decode (.f8 (cpat c)) = .ok (actInstr c) := by
  fin_cases c <;> rfl

/-- Settles O36: the word of the phase and the event at DPOS are one operation there. -/
theorem stepRunsThePinEvent : Obligations.StepRunsThePinEvent := by
  rintro s p e hl hrow (⟨hp, rfl⟩ | ⟨hp, hcol, rfl⟩) he <;> refine ⟨decode_peLabel e, ?_⟩
  · rw [step_eq_finish (fetch_act hp hrow), exec_actC_eq_pinInstr hl hp (eventAt_of_getElem he)]
  · rw [step_eq_finish (fetch_dea hp hcol hrow), exec_dea_eq_pinInstr hl hp (eventAt_of_getElem he)]

/-- Settles O37: at L1 the word of the phase and its frame are one operation there. -/
theorem stepRunsTheFrame : Obligations.StepRunsTheFrame := by
  intro s hl hrow
  refine ⟨fun hp => ⟨decode_cpat s.col, ?_⟩, fun hp hcol => ⟨rfl, ?_⟩⟩
  · rw [step_eq_finish (fetch_act hp hrow), exec_actC_l1 hl hp, exec_actInstr,
      frameOp_place (framePattern_eq_cpat.mpr ⟨hp, rfl⟩)]
  · rw [step_eq_finish (fetch_dea hp hcol hrow), exec_dea_l1 hl hp, exec_clr, frameOp_place (framePattern_eq_clear.mpr hp)]

end Sys2Proof.Machine
end

section
/-! O41, O44 and O45: one column at a time (R189, R190). Half-way through a frame the top of SH holds the bits sent, in frame order;
at the frame's end that is the whole pattern, and LAT1 commits it. -/

namespace Sys2Proof.Machine

/-! ### The bits sent so far (R94) -/

/-- After the first `d` events of `TRANSMIT(p)` the bits clocked in stand at the top of SH, in frame order. -/
def SentBits (p : Byte) (d : Nat) (sh : Byte) : Prop := ∀ j < d / 3, sh.getLsbD (8 - d / 3 + j) = p.getLsbD j

theorem sentBits_zero (p sh : Byte) : SentBits p 0 sh := fun _ hj => absurd hj (by simp)

/-- The shift of slot `d / 3` puts its bit at the top and moves the earlier ones down. -/
theorem sentBits_shiftIn {p sh : Byte} {d : Nat} (hd : d % 3 = 2) (h24 : d < 24) (h : SentBits p d sh) :
    SentBits p (d + 1) (shiftIn (p.getLsbD (d / 3)) sh) := by
  have hslots : (d + 1) / 3 = d / 3 + 1 := by omega
  intro j hj
  rw [hslots] at hj ⊢
  rw [getLsbD_shiftIn]
  by_cases hlast : j = d / 3
  · rw [if_pos (by omega), hlast]
  · rw [if_neg (by omega), ← h j (by omega)]
    congr 1
    omega

/-- An event that is no SCK1 leaves SH and the number of slots sent. -/
theorem sentBits_succ {p sh : Byte} {d : Nat} (hd : d % 3 ≠ 2) (h : SentBits p d sh) : SentBits p (d + 1) sh := by
  have hslots : (d + 1) / 3 = d / 3 := by omega
  rwa [SentBits, hslots]

/-- Before LAT1 all eight bits are in their places. -/
theorem eq_of_sentBits {p sh : Byte} (h : SentBits p 25 sh) : sh = p :=
  BitVec.eq_of_getLsbD_eq fun i hi => by simpa using h i hi

/-- SH changes at the SCK1 of a slot only. -/
theorem pinWrite_eventAt_sh (p : Byte) (d : FramePos) {s : State} (hsck : d.val % 3 = 2 → s.sck = false) :
    (pinWrite (eventAt p d) s).sh = if d.val % 3 = 2 then shiftIn s.ser s.sh else s.sh := by
  by_cases h2 : d.val % 3 = 2
  · rw [eventAt_sck1 p h2, pinWrite_sck1 (hsck h2), if_pos h2]
  · have hne : eventAt p d ≠ ⟨.sck, true⟩ := by
      unfold eventAt
      split_ifs <;> simp
    rw [pinWrite_sh_eq, if_neg (fun h => hne h.1), if_neg h2]

/-- The event before each SCK1 writes the slot's bit on SER (R123). -/
theorem pinWrite_eventAt_ser (p : Byte) {d : FramePos} (h1 : d.val % 3 = 1) (h25 : d.val < 25) (s : State) :
    (pinWrite (eventAt p d) s).ser = p.getLsbD (d.val / 3) := by
  have hslot : d.val = 1 + 3 * (⟨d.val / 3, by omega⟩ : Fin 8).val := by simp only; omega
  rw [eventAt_ser p hslot, pinWrite_ser]

/-! ### What keeps the column lines (R182, R185, R186) -/

theorem driveInv_endStep {u : State} (h : DriveInv u) (s : State) : DriveInv (endStep s u) := { h with }

/-- At the start of a sweep no column precedes column 0, and no bit has been sent (T10). -/
theorem driveInv_sweepStart (s : State) : DriveInv { s with ph := .act, col := 0, row := 0, dpos := 0, stl := 0 } where
  column := nofun
  idle_clear := nofun
  outgoing := nofun
  last_column := nofun
  sent := fun p _ => sentBits_zero p _
  data := nofun

/-- Outside the driver phases no frame is under way, so `DriveInv` asks for Q alone. -/
theorem driveInv_of_noFrame {s : State} (hf : framePattern s = none) (hq : s.ph ≠ .idle → s.q = cpat s.col)
    (hidle : s.ph = .idle → s.q = 0#8) : DriveInv s where
  column := fun hp => hq (by rcases hp with hp | hp <;> simp [hp])
  idle_clear := hidle
  outgoing := fun _ hp => by simp [framePattern, hp] at hf
  last_column := fun hp => by simp [framePattern, hp] at hf
  sent := fun _ hs => by simp [hf] at hs
  data := fun _ hs => by simp [hf] at hs

/-- The end of a frame that left its pattern on Q: CPAT[COL] in Settle, 0 in IDLE (T2, T9). -/
theorem driveInv_frameDone {s : State} {p : Byte} (hf : framePattern s = some p) (hq : s.q = p) :
    DriveInv (frameDone s) := by
  refine driveInv_of_noFrame (framePattern_frameDone hf) ?_ ?_ <;>
    obtain ⟨hp, rfl⟩ | ⟨hp, rfl⟩ := framePattern_cases hf
  · simp [hq]
  · simp [frameDone_dea hp]
  · simp [frameDone_act hp]
  · simp [hq, clearPattern]

/-- Within a driver phase Q stays, so only the bits sent and the data line are to be shown. -/
theorem driveInv_driverLines {s : State} (h : DriveInv s) {p : Byte} (hf : framePattern s = some p) {d : FramePos}
    {ser sck lat : Bool} {sh : Byte} {n : Nat} (hsent : SentBits p d.val sh)
    (hdata : d.val % 3 = 2 → ser = p.getLsbD (d.val / 3)) :
    DriveInv { s with ser := ser, sck := sck, lat := lat, sh := sh, since := n, dpos := d } :=
  { h with
    sent := fun _ hf' => Option.some.inj (hf.symm.trans hf') ▸ hsent
    data := fun _ hf' => Option.some.inj (hf.symm.trans hf') ▸ hdata }

/-- The bits sent and the data line after one of the first 25 events. -/
theorem sent_after_eventAt {s : State} (h : Inv s) (hdrive : DriveInv s) {p : Byte} (hf : framePattern s = some p)
    (hd : s.dpos.val < 25) :
    SentBits p (s.dpos.val + 1) (pinWrite (eventAt p s.dpos) s).sh
      ∧ ((s.dpos.val + 1) % 3 = 2 → (pinWrite (eventAt p s.dpos) s).ser = p.getLsbD ((s.dpos.val + 1) / 3)) := by
  have hsent : SentBits p s.dpos.val s.sh := hdrive.sent p hf
  refine ⟨?_, fun h2 => ?_⟩
  · rw [pinWrite_eventAt_sh p s.dpos fun h2 => inv_sck_low h (by omega)]
    split
    · next h2 => rw [hdrive.data p hf h2]; exact sentBits_shiftIn h2 (by omega) hsent
    · next h2 => exact sentBits_succ h2 hsent
  · rw [pinWrite_eventAt_ser p (by omega) hd]
    congr 1
    omega

/-- The frame's last event commits its pattern (R129 (a)). -/
theorem q_of_lastEvent {s : State} (h : Inv s) (hdrive : DriveInv s) {p : Byte} (hf : framePattern s = some p)
    (h25 : s.dpos.val = 25) : (pinWrite (eventAt p s.dpos) s).q = p := by
  rw [eventAt_last h25, pinWrite_lat1 (h.lat_low (by omega))]
  exact eq_of_sentBits (h25 ▸ hdrive.sent p hf)

/-- One pin event of the scanner's frame: the last commits the pattern, the others leave Q (T1, T2, T8, T9). -/
theorem driveInv_pinEvent {s : State} (h : Inv s) (hdrive : DriveInv s) {p : Byte} (hf : framePattern s = some p) :
    DriveInv (frameAdvance (pinWrite (eventAt p s.dpos) s)) := by
  by_cases hd : s.dpos.val < 25
  · have hsucc : (s.dpos + 1).val = s.dpos.val + 1 := Fin.val_add_one_of_lt (Fin.lt_def.mpr hd)
    obtain ⟨hsent, hdata⟩ := sent_after_eventAt h hdrive hf hd
    rw [← hsucc] at hsent hdata
    rw [frameAdvance_inside (by simpa using hd), pinWrite_dpos, pinWrite_eq_lines, q_of_eventAt hd.ne]
    exact driveInv_driverLines hdrive hf hsent hdata
  · have h25 : s.dpos.val = 25 := by omega
    have hframe : framePattern (pinWrite (eventAt p s.dpos) s) = some p := by simpa [framePattern] using hf
    rw [frameAdvance_end (by simpa using h25)]
    exact driveInv_frameDone hframe (q_of_lastEvent h hdrive hf h25)

/-- A whole frame at L1 (R129). -/
theorem driveInv_wholeFrame {s : State} (h : Inv s) {p : Byte} (hf : framePattern s = some p) (hl : s.level = .l1) :
    DriveInv (frameDone (transmit p s)) := by
  refine driveInv_frameDone (p := p) (by rwa [framePattern_transmit]) ?_
  rw [transmit_eq p s (inv_sck_low h (.inl (by simp [h.l1_whole hl])))]

/-- Settle and Sample leave Q and the column (R183, R184). -/
theorem driveInv_settled {s t : State} (h : DriveInv s) (hp : s.ph = .stl ∨ s.ph = .smp) (ht : t.ph = .stl ∨ t.ph = .smp)
    (hcol : t.col = s.col) (hq : t.q = s.q) : DriveInv t := by
  have hpatt : t.q = cpat t.col := by rw [hq, hcol, h.column hp]
  refine driveInv_of_noFrame ?_ (fun _ => hpatt) fun hi => ?_
  · rcases ht with ht | ht <;> simp [framePattern, ht]
  · simp [hi] at ht

theorem settleTick_stl_or_smp {s : State} (hp : s.ph = .stl) : (settleTick s).ph = .stl ∨ (settleTick s).ph = .smp := by
  unfold settleTick
  split
  · exact .inl hp
  · exact .inr rfl

/-- After a sample the column stays, or the next frame begins while this column is still high (T5, T6, T7). -/
theorem driveInv_sampleAdvance {s : State} (h : Inv s) (hdrive : DriveInv s) (hp : s.ph = .smp) :
    DriveInv (sampleAdvance s) := by
  have hq : s.q = cpat s.col := hdrive.column (.inr hp)
  have hd : s.dpos = 0 := inv_dpos_zero h (by simp [hp]) (by simp [hp])
  by_cases hrow : s.row.val < 8
  · rw [sampleAdvance_row hrow]
    exact { hdrive with }
  have hrow : s.row.val = 8 := by omega
  by_cases hcol : s.col.val < 7
  · have hsucc : (s.col + 1).val = s.col.val + 1 := Fin.val_add_one_of_lt (Fin.lt_def.mpr hcol)
    rw [sampleAdvance_column hrow hcol]
    exact {
      column := nofun
      idle_clear := nofun
      outgoing := fun c _ hc => by
        have hc : (s.col + 1).val = c.val + 1 := hc
        rw [hq, cpat_inj, Fin.ext_iff]
        omega
      last_column := nofun
      sent := fun p _ => by simp [hd]
      data := fun p _ => by simp [hd] }
  · have hcol : s.col = 7 := Fin.ext (by simp; omega)
    rw [sampleAdvance_sweep hrow (by simp [hcol])]
    exact {
      column := nofun
      idle_clear := nofun
      outgoing := nofun
      last_column := fun _ => hcol ▸ hq
      sent := fun p _ => by simp [hd]
      data := fun p _ => by simp [hd] }

/-- Every effect of a step keeps what the column lines and the half-sent frame hold. -/
theorem driveInv_effect {s u : State} (h : Inv s) (hdrive : DriveInv s) (hu : StepEffect s u) : DriveInv u := by
  cases hu with
  | yield => exact driveInv_sweepStart (passed (reporterGate s))
  | pin p hf => exact driveInv_pinEvent h hdrive hf
  | frame p hf hl => exact driveInv_wholeFrame h hf hl
  | tick hp => exact driveInv_settled hdrive (.inl hp) (settleTick_stl_or_smp hp) (by simp) (by simp)
  | settle hp => exact driveInv_settled hdrive (.inl hp) (.inr rfl) rfl rfl
  | sample hp =>
    exact driveInv_sampleAdvance (inv_passed (inv_wr h _ _ _)) { hdrive with } (by simpa using hp)

/-- Settles O41: each of the six effects keeps `DriveInv`, and so does what every step adds. -/
theorem stepKeepsTheColumnLines : Obligations.StepKeepsTheColumnLines := by
  intro s t h hdrive hstep
  obtain ⟨u, hu, rfl⟩ := step_effect hstep
  exact driveInv_endStep (driveInv_effect h hdrive hu) s

/-! ### What the column lines show (R189, R190) -/

/-- Settles O44: in SMP Q is CPAT[COL] by `DriveInv`, the delay has passed by `Inv`, and the sample reads its own column. -/
theorem sampleSeesItsOwnColumn : Obligations.SampleSeesItsOwnColumn := by
  intro s h hdrive hp
  have hq : s.q = cpat s.col := hdrive.column (.inr hp)
  refine ⟨fun c => ?_, h.delayed hp, fun hkind hstuck => step_smp_ownColumn hp (h.delayed hp) hstuck hkind hq⟩
  rw [hq, cpat_getLsbD]
  exact decide_eq_decide.mpr Fin.ext_iff.symm

/-- An effect leaves Q, or puts the pattern of the scanner's frame on it (R131). -/
theorem effect_q_cases {s u : State} (h : Inv s) (hdrive : DriveInv s) (hu : StepEffect s u) :
    u.q = s.q ∨ framePattern s = some u.q := by
  cases hu with
  | pin p hf hl =>
    by_cases h25 : s.dpos.val = 25
    · exact .inr (by rw [frameAdvance_q, q_of_lastEvent h hdrive hf h25, hf])
    · exact .inl (by rw [frameAdvance_q, q_of_eventAt h25])
  | frame p hf hl =>
    rw [frameDone_q, transmit_eq p s (inv_sck_low h (.inl (by simp [h.l1_whole hl])))]
    exact .inr hf
  | _ => exact .inl (by simp)

/-- Settles O45: the scanner's frames are CPAT[COL] and the clear pattern. -/
theorem committedBytesHaveAtMostOneBit : Obligations.CommittedBytesHaveAtMostOneBit := by
  intro s t h hdrive hstep
  obtain ⟨u, hu, rfl⟩ := step_effect hstep
  refine (effect_q_cases h hdrive hu).imp_right fun hf => ?_
  rcases framePattern_cases hf with ⟨-, hq⟩ | ⟨-, hq⟩
  · exact .inr ⟨s.col, hq⟩
  · exact .inl hq

end Sys2Proof.Machine
end

section
/-! O43: the step answers in every state that meets the invariants (R181, R193, R220). Where the position is a legal word, the
effect of its phase is what the step answers. -/

namespace Sys2Proof.Machine

/-- The converse of `step_effect`: at a legal position an effect of the phase is the step's answer. -/
theorem step_of_effect {s u : State} {i : Instr} (hf : fetch s = .ok i) (hu : StepEffect s u) :
    step s = .next (endStep s u) := by
  refine step_next_iff.mpr ⟨i, u, hf, ?_, rfl⟩
  have hcases := fetch_cases hf
  cases hu with
  | yield hp hr hclock =>
    obtain ⟨-, -, rfl⟩ : s.col = 0 ∧ s.row = 0 ∧ i = .yield := by simpa [hp] using hcases
    exact exec_yield_place hp hclock
  | pin p hpatt hl =>
    rcases framePattern_cases hpatt with ⟨hp, rfl⟩ | ⟨hp, rfl⟩
    · obtain ⟨-, rfl⟩ : s.row = 0 ∧ i = .actC s.col := by simpa [hp] using hcases
      exact exec_actC_l0 hl hp
    · obtain ⟨-, -, rfl⟩ : s.col = 0 ∧ s.row = 0 ∧ i = .dea := by simpa [hp] using hcases
      exact exec_dea_l0 hl hp
  | frame p hpatt hl =>
    rcases framePattern_cases hpatt with ⟨hp, rfl⟩ | ⟨hp, rfl⟩
    · obtain ⟨-, rfl⟩ : s.row = 0 ∧ i = .actC s.col := by simpa [hp] using hcases
      exact exec_actC_l1 hl hp
    · obtain ⟨-, -, rfl⟩ : s.col = 0 ∧ s.row = 0 ∧ i = .dea := by simpa [hp] using hcases
      exact exec_dea_l1 hl hp
  | tick hp hr hl =>
    obtain ⟨-, rfl⟩ : s.row = 0 ∧ i = .tick s.col := by simpa [hp] using hcases
    exact exec_tick_l0 hl hp
  | settle hp hr hl =>
    obtain ⟨-, rfl⟩ : s.row = 0 ∧ i = .tick s.col := by simpa [hp] using hcases
    exact exec_tick_l1 hl hp
  | sample hp =>
    obtain rfl : i = .smp s.col s.row := by simpa [hp] using hcases
    exact exec_smp_place hp

/-- The invariants make the position a legal sequencer word (R42, R99). -/
theorem inv_fetch {s : State} (h : Inv s) : ∃ i, fetch s = .ok i := by
  have hrow : s.ph ≠ .smp → s.row = 0 := inv_row_zero h
  have hcol : s.ph = .idle ∨ s.ph = .dea → s.col = 0 := fun hp =>
    of_not_not fun hne => by rcases hp with hp | hp <;> simpa [hp] using h.col_phase hne
  cases hp : s.ph with
  | idle => exact ⟨_, fetch_idle hp (hcol (.inl hp)) (hrow (by simp [hp]))⟩
  | act => exact ⟨_, fetch_act hp (hrow (by simp [hp]))⟩
  | stl => exact ⟨_, fetch_stl hp (hrow (by simp [hp]))⟩
  | smp => exact ⟨_, fetch_smp hp⟩
  | dea => exact ⟨_, fetch_dea hp (hcol (.inr hp)) (hrow (by simp [hp]))⟩

theorem step_of_inv {s u : State} (h : Inv s) (hu : StepEffect s u) : step s = .next (endStep s u) :=
  have ⟨_, hf⟩ := inv_fetch h
  step_of_effect hf hu

/-- In each phase and at each level one row of R181 applies. -/
theorem exists_effect {s : State} (h : Inv s) : ∃ u, StepEffect s u := by
  have driver : s.ph = .act ∨ s.ph = .dea → ∃ u, StepEffect s u := fun hp => by
    obtain ⟨p, hf⟩ := exists_framePattern hp
    cases hl : s.level with
    | l0 => exact ⟨_, .pin p hf hl⟩
    | l1 => exact ⟨_, .frame p hf hl⟩
  have hrow : s.ph ≠ .smp → s.row = 0 := inv_row_zero h
  cases hp : s.ph with
  | idle => exact ⟨_, .yield hp (hrow (by simp [hp])) h.clock⟩
  | act => exact driver (.inl hp)
  | stl =>
    cases hl : s.level with
    | l0 => exact ⟨_, .tick hp (hrow (by simp [hp])) hl⟩
    | l1 => exact ⟨_, .settle hp (hrow (by simp [hp])) hl⟩
  | smp => exact ⟨_, .sample hp⟩
  | dea => exact driver (.inr hp)

/-- Settles O43: the position is legal, and its phase has an effect. -/
theorem reachableStatesAlwaysStep : Obligations.ReachableStatesAlwaysStep := fun _ h =>
  have ⟨_, hu⟩ := exists_effect h
  ⟨_, step_of_inv h hu⟩

end Sys2Proof.Machine
end

section
/-! O47: the scanner never reads the table (R198). Each effect commutes with another table and other reports; only the sample
writes the table, and only the gate adds a report. -/

namespace Sys2Proof.Machine

/-- The same state with another table and other reports. -/
def State.withTable (s : State) (m : Memory) (rs : List Report) : State := { s with snap := m, reports := rs }

/-- What the step from `s` leaves of another table `m`: the level read is written to the entry of the position (R184). -/
def tableAfter (s : State) (m : Memory) : Memory :=
  if s.ph = .smp then m.write (9 * s.col.val + s.row.val) (keyByte (pinRead s.row s)) else m

/-! ### The operations read neither the table nor the reports -/

theorem pinWrite_withTable (e : PinEvent) (s : State) (m : Memory) (rs : List Report) :
    pinWrite e (s.withTable m rs) = (pinWrite e s).withTable m rs := by
  obtain ⟨line, level⟩ := e
  cases line <;> rfl

theorem transmit_withTable (p : Byte) (s : State) (m : Memory) (rs : List Report) :
    transmit p (s.withTable m rs) = (transmit p s).withTable m rs :=
  List.foldl_hom (State.withTable · m rs) fun t e => pinWrite_withTable e t m rs

theorem frameDone_withTable (s : State) (m : Memory) (rs : List Report) :
    frameDone (s.withTable m rs) = (frameDone s).withTable m rs := by
  cases hp : s.ph <;> simp [frameDone, State.withTable, hp]

theorem frameAdvance_withTable (s : State) (m : Memory) (rs : List Report) :
    frameAdvance (s.withTable m rs) = (frameAdvance s).withTable m rs := by
  simp only [frameAdvance, apply_ite (State.withTable · m rs), ← frameDone_withTable]
  rfl

theorem settleTick_withTable (s : State) (m : Memory) (rs : List Report) :
    settleTick (s.withTable m rs) = (settleTick s).withTable m rs := by
  simp only [settleTick, apply_ite (State.withTable · m rs)]
  rfl

theorem sampleAdvance_withTable (s : State) (m : Memory) (rs : List Report) :
    sampleAdvance (s.withTable m rs) = (sampleAdvance s).withTable m rs := by
  simp only [sampleAdvance, apply_ite (State.withTable · m rs)]
  rfl

/-- The gate adds a report where it did before (R229). -/
theorem reporterGate_withTable (s : State) (m : Memory) :
    ∃ rs, rs.length = (reporterGate s).reports.length
      ∧ reporterGate (s.withTable m s.reports) = (reporterGate s).withTable m rs := by
  have hgate : gateOpen (s.withTable m s.reports) = gateOpen s := rfl
  unfold reporterGate
  rw [hgate]
  split
  · exact ⟨report (s.withTable m s.reports) :: s.reports, rfl, rfl⟩
  · exact ⟨s.reports, rfl, rfl⟩

theorem eventOf_withTable (s : State) (m : Memory) (rs : List Report) : eventOf (s.withTable m rs) = eventOf s := rfl

/-! ### The step -/

/-- Each effect takes another table, and emits as many reports. -/
theorem effect_withTable {s u : State} (hu : StepEffect s u) (m : Memory) :
    ∃ rs, rs.length = u.reports.length ∧ StepEffect (s.withTable m s.reports) (u.withTable (tableAfter s m) rs) := by
  have hother : s.ph ≠ .smp → tableAfter s m = m := fun hp => if_neg hp
  cases hu with
  | yield hp hr hclock =>
    obtain ⟨rs, hlen, hgate⟩ := reporterGate_withTable s m
    refine ⟨rs, hlen, ?_⟩
    have hyield := StepEffect.yield (s := s.withTable m s.reports) hp hr hclock
    rw [hgate] at hyield
    rwa [hother (by simp [hp])]
  | pin p hf hl =>
    refine ⟨s.reports, by simp, ?_⟩
    rw [hother (fun hs => by simp [framePattern, hs] at hf), ← frameAdvance_withTable, ← pinWrite_withTable]
    exact .pin p hf hl
  | frame p hf hl =>
    refine ⟨s.reports, by simp, ?_⟩
    rw [hother (fun hs => by simp [framePattern, hs] at hf), ← frameDone_withTable, ← transmit_withTable]
    exact .frame p hf hl
  | tick hp hr hl =>
    refine ⟨s.reports, by simp, ?_⟩
    rw [hother (by simp [hp]), ← settleTick_withTable]
    exact .tick hp hr hl
  | settle hp hr hl =>
    refine ⟨s.reports, rfl, ?_⟩
    rw [hother (by simp [hp])]
    exact .settle (s := s.withTable m s.reports) hp hr hl
  | sample hp =>
    refine ⟨s.reports, by simp, ?_⟩
    rw [← sampleAdvance_withTable, tableAfter, if_pos hp]
    exact .sample (s := s.withTable m s.reports) hp

/-- Settles O47: the position is the same, its effect takes the other table, and so do the label and what a step adds. -/
theorem scannerNeverReadsTheTable : Obligations.ScannerNeverReadsTheTable := by
  intro s t m hstep
  obtain ⟨i, -, hf, -⟩ := step_next_iff.mp hstep
  obtain ⟨u, hu, rfl⟩ := step_effect hstep
  obtain ⟨rs, hlen, hu'⟩ := effect_withTable hu m
  refine ⟨rs, hlen, (step_of_effect (s := s.withTable m s.reports) hf hu').trans ?_⟩
  rw [endStep, eventOf_withTable]
  rfl

end Sys2Proof.Machine
end

section
/-! O50: Settle at L0 (R183). Each tick but the last moves one step from STL to the count of steps since the commit. -/

namespace Sys2Proof.Machine

/-! ### Runs -/

/-- A run one step longer. -/
theorem stepN_succ_of_step {n : Nat} {s t u : State} (hrun : stepN n s = .next t) (hstep : step t = .next u) :
    stepN (n + 1) s = .next u := by
  rw [stepN_add n 1 hrun, stepN_succ 0 hstep]
  rfl

/-! ### The ticks of a Settle -/

/-- The run after `k` ticks of the Settle that `s` stands in, with some inputs. -/
def settleRun (k : Nat) (i : Inputs) (s : State) : State :=
  { s with
    stl := s.stl - k, since := s.since + k, inp := i, tick := s.tick + k, trace := List.replicate k .tick ++ s.trace }

/-- The run at the end of the Settle that `s` stands in, with some inputs. -/
def sampleStart (i : Inputs) (s : State) : State :=
  { s with
    ph := .smp, row := 0, stl := 0, since := s.since + s.stl, inp := i, tick := s.tick + s.stl,
    trace := List.replicate s.stl .tick ++ s.trace }

/-- Ticks add up. -/
theorem settleRun_settleRun_one (k : Nat) (i j : Inputs) (s : State) :
    settleRun 1 j (settleRun k i s) = settleRun (k + 1) j s := rfl

/-- The Settle ends in the same state from any point of it. -/
theorem sampleStart_settleRun {k : Nat} {s : State} (hk : k ≤ s.stl) (i j : Inputs) :
    sampleStart j (settleRun k i s) = sampleStart j s := by
  simp only [sampleStart, settleRun, ← List.append_assoc, List.replicate_append_replicate, Nat.add_assoc,
    Nat.sub_add_cancel hk, Nat.add_sub_cancel' hk]

theorem eventOf_tick {s : State} (hl : s.level = .l0) (hp : s.ph = .stl) : eventOf s = .tick := by simp [eventOf, hl, hp]

/-- A tick that leaves STL above 0 is one tick of the Settle (T3). -/
theorem step_settleRun {s : State} (h : Inv s) (hl : s.level = .l0) (hp : s.ph = .stl) (hmore : 1 < s.stl) :
    ∃ i, step s = .next (settleRun 1 i s) := by
  refine ⟨nextInputs (s.tick + 1) s.inp, ?_⟩
  rw [step_of_inv h (.tick hp (inv_row_zero h (by simp [hp])) hl), settleTick_more hmore, endStep, eventOf_tick hl hp]
  rfl

/-- The tick that takes STL from 1 to 0 ends the Settle (T4). -/
theorem step_sampleStart {s : State} (h : Inv s) (hl : s.level = .l0) (hp : s.ph = .stl) (hlast : s.stl = 1) :
    ∃ i, step s = .next (sampleStart i s) := by
  refine ⟨nextInputs (s.tick + 1) s.inp, ?_⟩
  rw [step_of_inv h (.tick hp (inv_row_zero h (by simp [hp])) hl), settleTick_end hlast.le, endStep, eventOf_tick hl hp,
    settleDone, sampleStart, hlast]
  rfl

/-- The phase lasts while ticks are still to take. -/
theorem stepN_settleRun {s : State} (h : Inv s) (hl : s.level = .l0) (hp : s.ph = .stl) {k : Nat} (hk : k < s.stl) :
    ∃ i, stepN k s = .next (settleRun k i s) := by
  induction k with
  | zero => exact ⟨s.inp, rfl⟩
  | succ k ih =>
    obtain ⟨i, hrun⟩ := ih (by omega)
    obtain ⟨j, hstep⟩ := step_settleRun (inv_stepN h hrun) hl hp (Nat.lt_sub_of_add_lt (by omega))
    rw [settleRun_settleRun_one] at hstep
    exact ⟨j, stepN_succ_of_step hrun hstep⟩

/-- It lasts `STL` steps. -/
theorem stepN_settle {s : State} (h : Inv s) (hl : s.level = .l0) (hp : s.ph = .stl) :
    ∃ i, stepN s.stl s = .next (sampleStart i s) := by
  have hpos : 1 ≤ s.stl := Nat.one_le_iff_ne_zero.mpr (h.stl_pos hp)
  obtain ⟨i, hrun⟩ := stepN_settleRun h hl hp (Nat.sub_one_lt_of_le hpos le_rfl)
  obtain ⟨j, hstep⟩ := step_sampleStart (inv_stepN h hrun) hl hp (Nat.sub_sub_self hpos)
  rw [sampleStart_settleRun (Nat.sub_le _ _)] at hstep
  have hend := stepN_succ_of_step hrun hstep
  rw [Nat.sub_add_cancel hpos] at hend
  exact ⟨j, hend⟩

/-- Settles O50: the run after n ticks, and the run at the end of the phase. -/
theorem settleTakesExactlyItsTicks : Obligations.SettleTakesExactlyItsTicks := by
  intro s h hl hp
  refine ⟨fun n hn => ?_, ?_⟩
  · obtain ⟨i, hrun⟩ := stepN_settleRun h hl hp hn
    exact ⟨_, hrun, hp, rfl⟩
  · obtain ⟨i, hrun⟩ := stepN_settle h hl hp
    exact ⟨_, hrun, rfl, rfl, rfl, rfl, rfl, rfl, rfl, rfl, rfl, rfl, rfl, rfl⟩

end Sys2Proof.Machine
end

section
/-! What any run keeps, and the table after a run, read off the events that the run added to the trace. -/

namespace Sys2Proof.Machine

/-! ### What every step keeps, every run keeps -/

theorem exists_step_of_stepN_succ {n : Nat} {s t : State} (hrun : stepN (n + 1) s = .next t) :
    ∃ u, step s = .next u ∧ stepN n u = .next t := by
  cases hs : step s with
  | next u => exact ⟨u, rfl, stepN_succ n hs ▸ hrun⟩
  | fault f => simp [stepN, hs] at hrun
  | refused r => simp [stepN, hs] at hrun

theorem stepN_keeps {P : State → Prop} (hstep : ∀ s t, P s → step s = .next t → P t) {n : Nat} {s t : State} (h : P s)
    (hrun : stepN n s = .next t) : P t := by
  induction n generalizing s with
  | zero => cases hrun; exact h
  | succ n ih =>
    obtain ⟨u, hs, hrun⟩ := exists_step_of_stepN_succ hrun
    exact ih (hstep s u h hs) hrun

/-- Each step of a run is counted (log 2). -/
theorem stepN_tick {n : Nat} {s t : State} (hrun : stepN n s = .next t) : t.tick = s.tick + n := by
  induction n generalizing s with
  | zero => cases hrun; rfl
  | succ n ih =>
    obtain ⟨u, hs, hrun⟩ := exists_step_of_stepN_succ hrun
    obtain ⟨w, -, rfl⟩ := step_effect hs
    rw [ih hrun, endStep_tick, Nat.add_assoc, Nat.add_comm 1 n]

theorem step_level {s t : State} (h : step s = .next t) : t.level = s.level := by
  obtain ⟨u, hu, rfl⟩ := step_effect h
  exact (effect_par_level hu).2

/-- No run writes the parameters. -/
theorem stepN_par {n : Nat} {s t : State} (hrun : stepN n s = .next t) : t.par = s.par :=
  stepN_keeps (P := fun u => u.par = s.par) (fun _ _ h hstep => (step_par hstep).trans h) rfl hrun

/-- No run writes the level. -/
theorem stepN_level {n : Nat} {s t : State} (hrun : stepN n s = .next t) : t.level = s.level :=
  stepN_keeps (P := fun u => u.level = s.level) (fun _ _ h hstep => (step_level hstep).trans h) rfl hrun

/-- The contacts and the draw of the coming step are those that the environment supplies at its index (R31, R41). -/
def FreshInputs (s : State) : Prop := s.inp.keys = Config.keysAt s.tick ∧ s.inp.draw = Config.drawAt s.tick

/-- Every step leaves such inputs (log 2). -/
theorem freshInputs_of_step {s t : State} (h : step s = .next t) : FreshInputs t := by
  obtain ⟨u, -, rfl⟩ := step_effect h
  exact ⟨rfl, rfl⟩

theorem stepN_freshInputs {n : Nat} {s t : State} (h : FreshInputs s) (hrun : stepN n s = .next t) : FreshInputs t :=
  stepN_keeps (fun _ _ _ => freshInputs_of_step) h hrun

theorem freshInputs_of_stepN_succ {n : Nat} {s t : State} (hrun : stepN (n + 1) s = .next t) : FreshInputs t :=
  have ⟨_, hs, hrun⟩ := exists_step_of_stepN_succ hrun
  stepN_freshInputs (freshInputs_of_step hs) hrun

/-! ### The table after a run, read off its events (R21) -/

/-- The value an event writes to entry (c, r), if it is a sample of it. -/
def sampledValue (c : Col) (r : Row) : Event → Option Bool
  | .smp c' r' v => if c = c' ∧ r = r' then some v else none
  | .pin _ => none
  | .tick => none
  | .yield => none
  | .act _ => none
  | .stl => none
  | .clr => none

theorem sampledValue_eq_some {c : Col} {r : Row} {e : Event} {v : Bool} : sampledValue c r e = some v ↔ e = .smp c r v := by
  cases e with
  | smp c' r' w => simp [sampledValue, and_assoc, @eq_comm _ c, @eq_comm _ r]
  | _ => simp [sampledValue]

/-- A step that samples the entry writes the value sampled, any other leaves the entry. -/
theorem step_tblRead {s t : State} (h : step s = .next t) (c : Col) (r : Row) :
    tblRead c r t = (sampledValue c r (eventOf s)).getD (tblRead c r s) := by
  obtain ⟨u, hu, rfl⟩ := step_effect h
  by_cases hp : s.ph = .smp
  · have hsnap : (endStep s u).snap = (tblWrite s.col s.row (pinRead s.row s) s).snap := by simp [effect_smp hu hp]
    rw [tblRead_congr hsnap, tblRead_tblWrite, eventOf_smp hp, sampledValue]
    split <;> rfl
  · have hnone : sampledValue c r (eventOf s) = none := by
      cases hs : s.ph with
      | smp => exact absurd hs hp
      | _ => cases hl : s.level <;> simp [eventOf, hs, hl, sampledValue]
    rw [tblRead_congr ((endStep_snap s u).trans (effect_snap hu hp)), hnone]
    rfl

theorem step_trace {s t : State} (h : step s = .next t) : t.trace = eventOf s :: s.trace := by
  obtain ⟨u, hu, rfl⟩ := step_effect h
  rw [endStep_trace, effect_trace hu]

/-- A run leaves in each entry its newest sample in the run, and where there is none what the entry held. -/
theorem stepN_tblRead {n : Nat} {s t : State} (hrun : stepN n s = .next t) :
    ∃ es, t.trace = es ++ s.trace
      ∧ ∀ c r, tblRead c r t = (es.findSome? (sampledValue c r)).getD (tblRead c r s) := by
  refine stepN_keeps (P := fun u => ∃ es, u.trace = es ++ s.trace
    ∧ ∀ c r, tblRead c r u = (es.findSome? (sampledValue c r)).getD (tblRead c r s)) ?_ ⟨[], rfl, fun _ _ => rfl⟩ hrun
  rintro u w ⟨es, htrace, htable⟩ hstep
  refine ⟨eventOf u :: es, by rw [step_trace hstep, htrace, List.cons_append], fun c r => ?_⟩
  rw [step_tblRead hstep, htable, List.findSome?_cons]
  cases sampledValue c r (eventOf u) <;> rfl

/-- Where the events of a run sample an entry, and always with the same value, that value is in the table. -/
theorem tblRead_of_trace {n : Nat} {s t : State} {es : List Event} (hrun : stepN n s = .next t)
    (htrace : t.trace = es ++ s.trace) {c : Col} {r : Row} {v : Bool} (h : ∀ w, Event.smp c r w ∈ es ↔ w = v) :
    tblRead c r t = v := by
  obtain ⟨es', htrace', htable⟩ := stepN_tblRead hrun
  obtain rfl : es = es' := List.append_cancel_right (htrace.symm.trans htrace')
  rw [htable]
  cases hfind : es.findSome? (sampledValue c r) with
  | none =>
    have hnone := List.findSome?_eq_none_iff.mp hfind _ ((h v).mpr rfl)
    simp [sampledValue] at hnone
  | some w =>
    obtain ⟨e, he, hw⟩ := List.exists_of_findSome?_eq_some hfind
    exact (h w).mp (sampledValue_eq_some.mp hw ▸ he)

end Sys2Proof.Machine
end

section
/-! O54 and O55: a sweep at L0 (R188, R191, R192). Its run is followed frame by frame, Settle by Settle and sample by sample, with
its events; the table at the end is read off the samples among them. -/

namespace Sys2Proof.Machine

/-! ### The level sampled at a step -/

/-- What row line `r` reads at step `n` under column `c` alone, the delay passed. Of the state only the parameters count. -/
def levelAt (par : Params) (c : Col) (n : Nat) (r : Row) : Bool :=
  pinRead r { State.reset with
    par := par, ph := .smp, q := cpat c, since := par.settleTicks,
    inp := { keys := Config.keysAt n, now := 0, draw := Config.drawAt n } }

/-- A read in SMP with the column's pattern on Q is that level (R190). -/
theorem pinRead_eq_levelAt {s : State} (h : Inv s) (hp : s.ph = .smp) (hq : s.q = cpat s.col) (hin : FreshInputs s)
    (r : Row) : pinRead r s = levelAt s.par s.col s.tick r := by
  have hs : settled s = true := settled_iff.mpr ⟨hp, h.delayed hp⟩
  obtain ⟨hkeys, hdraw⟩ := hin
  rw [levelAt, pinRead, pinRead, hs, settled_iff.mpr ⟨rfl, le_rfl⟩, hq, hkeys, hdraw]

/-! ### The frame of a column (R182) -/

/-- The run at the end of the ACT frame that begins in `s`, with some inputs. -/
def settleStart (i : Inputs) (s : State) : State :=
  { s with
    ser := decide (s.col.val = 7), sck := false, lat := true, sh := cpat s.col, q := cpat s.col, ph := .stl, dpos := 0,
    stl := s.par.settleTicks, since := 0, inp := i, tick := s.tick + 26,
    trace := frameLabels (cpat s.col) 26 ++ s.trace }

theorem stepN_settleStart {s : State} (h : Inv s) (hl : s.level = .l0) (hp : s.ph = .act) (hd : s.dpos = 0) :
    ∃ i, stepN 26 s = .next (settleStart i s) := by
  obtain ⟨i, hrun⟩ := stepN_frame h (framePattern_eq_cpat.mpr ⟨hp, rfl⟩) hl hd
  have hsck : s.sck = false := inv_sck_low h (.inl (by simp [hd]))
  rw [frameRun, afterEvents_all, transmit_cpat s.col hsck, frameDone_act (by exact hp)] at hrun
  exact ⟨i, hrun⟩

/-! ### The samples of a column (R184) -/

/-- The labels of the first `k` samples of column `c` with the values `v`, newest first. -/
def sampleLabels (c : Col) (v : Row → Bool) (k : Nat) : List Event := ((allRows.take k).map fun r => .smp c r (v r)).reverse

theorem allRows_getElem (r : Row) : allRows[r.val]? = some r := by fin_cases r <;> rfl

theorem sampleLabels_succ (c : Col) (v : Row → Bool) (r : Row) :
    sampleLabels c v (r.val + 1) = .smp c r (v r) :: sampleLabels c v r.val := by
  simp [sampleLabels, List.take_add_one, allRows_getElem]

/-- The run at row `r` of the samples of the column that `s` stands at, with some table and inputs. -/
def sampleRun (v : Row → Bool) (r : Row) (m : Memory) (i : Inputs) (s : State) : State :=
  { s with
    snap := m, row := r, since := s.since + r.val, inp := i, tick := s.tick + r.val,
    trace := sampleLabels s.col v r.val ++ s.trace }

/-- The state after one sample with value `b`, but for the position, with some table and inputs. -/
def sampled (b : Bool) (m : Memory) (i : Inputs) (s : State) : State :=
  { s with snap := m, since := s.since + 1, inp := i, tick := s.tick + 1, trace := .smp s.col s.row b :: s.trace }

/-- Moving on from a sample and what every step adds do not meet. -/
theorem endStep_sampleAdvance (s t : State) : endStep s (sampleAdvance t) = sampleAdvance (endStep s t) := by
  simp only [sampleAdvance, apply_ite (endStep s)]
  rfl

theorem step_sampled {s : State} (h : Inv s) (hp : s.ph = .smp) :
    ∃ m i, step s = .next (sampleAdvance (sampled (pinRead s.row s) m i s)) := by
  refine ⟨s.snap.write (tblAddr s.col s.row) (keyByte (pinRead s.row s)), nextInputs (s.tick + 1) s.inp, ?_⟩
  rw [step_of_inv h (.sample hp), endStep_sampleAdvance, endStep, eventOf_smp hp]
  rfl

/-- One more sample of a column, and on to the next row (T5). -/
theorem sampleAdvance_sampleRun (v : Row → Bool) (r : Fin 8) (m m' : Memory) (i i' : Inputs) (s : State) :
    sampleAdvance (sampled (v r.castSucc) m' i' (sampleRun v r.castSucc m i s)) = sampleRun v r.succ m' i' s := by
  have hlabels : sampleLabels s.col v r.succ.val = .smp s.col r.castSucc (v r.castSucc) :: sampleLabels s.col v r.val :=
    sampleLabels_succ s.col v r.castSucc
  rw [sampleAdvance_row (by exact r.isLt)]
  simp only [sampled, sampleRun, hlabels, Fin.coeSucc_eq_succ]
  rfl

/-- Where the samples of column `c` lead: to the next column's frame, or to the clear frame (T6, T7). -/
structure AfterColumn (c : Col) (t : State) : Prop where
  dpos : t.dpos = 0
  next : c.val < 7 → t.ph = .act ∧ t.col = c + 1
  sweep : c.val = 7 → t.ph = .dea ∧ t.col = 0

theorem afterColumn_sampleAdvance {s : State} (hd : s.dpos = 0) (hrow : s.row.val = 8) :
    AfterColumn s.col (sampleAdvance s) where
  dpos := by rw [sampleAdvance_dpos, hd]
  next := fun hc => by rw [sampleAdvance_column hrow hc]; exact ⟨rfl, rfl⟩
  sweep := fun hc => by rw [sampleAdvance_sweep hrow hc]; exact ⟨rfl, rfl⟩

section
variable {s : State} {v : Row → Bool} (h : Inv s) (hp : s.ph = .smp) (hq : s.q = cpat s.col) (hin : FreshInputs s)
  (hv : ∀ r, v r = levelAt s.par s.col (s.tick + r.val) r) (hrow : s.row = 0)
include h hp hq hin hv

/-- At each row the step samples the level of that step. -/
theorem step_sampleRun {r : Row} {m : Memory} {i : Inputs} (hrun : stepN r.val s = .next (sampleRun v r m i s)) :
    ∃ m' i', step (sampleRun v r m i s) = .next (sampleAdvance (sampled (v r) m' i' (sampleRun v r m i s))) := by
  have hinv : Inv (sampleRun v r m i s) := inv_stepN h hrun
  have hread : pinRead r (sampleRun v r m i s) = v r :=
    (pinRead_eq_levelAt hinv hp hq (stepN_freshInputs hin hrun) r).trans (hv r).symm
  rw [← hread]
  exact step_sampled hinv hp

include hrow

/-- The samples of a column reach each row in its turn. -/
theorem stepN_sampleRun (r : Row) : ∃ m i, stepN r.val s = .next (sampleRun v r m i s) := by
  induction r using Fin.induction with
  | zero => exact ⟨s.snap, s.inp, congrArg Host.Outcome.next (by cases s; subst hrow; rfl)⟩
  | succ r ih =>
    obtain ⟨m, i, hrun⟩ := ih
    obtain ⟨m', i', hstep⟩ := step_sampleRun h hp hq hin hv hrun
    rw [sampleAdvance_sampleRun] at hstep
    exact ⟨m', i', stepN_succ_of_step hrun hstep⟩

/-- The nine samples of a column. -/
theorem stepN_samples : ∃ t, stepN 9 s = .next t ∧ AfterColumn s.col t ∧ t.trace = sampleLabels s.col v 9 ++ s.trace := by
  obtain ⟨m, i, hrun⟩ := stepN_sampleRun h hp hq hin hv hrow 8
  obtain ⟨m', i', hstep⟩ := step_sampleRun h hp hq hin hv hrun
  have hd : s.dpos = 0 := inv_dpos_zero h (by simp [hp]) (by simp [hp])
  refine ⟨_, stepN_succ_of_step hrun hstep, afterColumn_sampleAdvance (s := sampled _ _ _ (sampleRun _ 8 _ _ _)) hd rfl, ?_⟩
  rw [sampleAdvance_trace]
  rfl

end

/-! ### A column (R102) -/

/-- The labels of a column are those of its frame, its ticks and its samples (R102). -/
theorem columnEvents_reverse (ticks : Nat) (v : Col → Row → Bool) (c : Col) (es : List Event) :
    sampleLabels c (v c) 9 ++ (List.replicate ticks .tick ++ (frameLabels (cpat c) 26 ++ es))
      = (columnEvents ticks v c).reverse ++ es := by
  have hframe : frameLabels (cpat c) 26 = ((frameEvents (cpat c)).map .pin).reverse := rfl
  have hsamples : sampleLabels c (v c) 9 = (allRows.map fun r => .smp c r (v c r)).reverse := rfl
  simp only [columnEvents, hframe, hsamples, List.reverse_append, List.reverse_replicate, List.append_assoc]

/-- A column at L0: 26 steps of its frame, S ticks and nine samples. -/
theorem stepN_column {s : State} {v : Col → Row → Bool} (h : Inv s) (hl : s.level = .l0) (hp : s.ph = .act) (hd : s.dpos = 0)
    (hv : ∀ r, v s.col r = levelAt s.par s.col (s.tick + 26 + s.par.settleTicks + r.val) r) :
    ∃ t, stepN (35 + s.par.settleTicks) s = .next t ∧ AfterColumn s.col t
      ∧ t.trace = (columnEvents s.par.settleTicks v s.col).reverse ++ s.trace := by
  obtain ⟨i, hframe⟩ := stepN_settleStart h hl hp hd
  have hinv := inv_stepN h hframe
  obtain ⟨j, hsettle⟩ := stepN_settle hinv hl rfl
  have hin : FreshInputs (sampleStart j (settleStart i s)) := stepN_freshInputs (freshInputs_of_stepN_succ hframe) hsettle
  obtain ⟨t, hsamples, hafter, htrace⟩ := stepN_samples (v := v s.col) (inv_stepN hinv hsettle) rfl rfl hin hv rfl
  refine ⟨t, ?_, hafter, htrace.trans (columnEvents_reverse _ _ _ _)⟩
  have hlen : 35 + s.par.settleTicks = 26 + (s.par.settleTicks + 9) := by omega
  rw [hlen, stepN_add _ _ hframe]
  exact (stepN_add _ _ hsettle).trans hsamples

/-! ### A sweep (R185, R188, R192) -/

theorem allCols_getElem (c : Col) : allCols[c.val]? = some c := by fin_cases c <;> rfl

/-- The labels of the first `k` columns of a sweep, newest first. -/
def columnLabels (ticks : Nat) (v : Col → Row → Bool) (k : Nat) : List Event :=
  ((allCols.take k).flatMap (columnEvents ticks v)).reverse

theorem columnLabels_succ (ticks : Nat) (v : Col → Row → Bool) (c : Col) :
    columnLabels ticks v (c.val + 1) = (columnEvents ticks v c).reverse ++ columnLabels ticks v c.val := by
  simp [columnLabels, List.take_add_one, allCols_getElem]

/-- The labels of a sweep are those of its eight columns and of the clear frame (R102). -/
theorem sweepEvents_reverse (ticks : Nat) (v : Col → Row → Bool) :
    (sweepEvents ticks v).reverse = frameLabels clearPattern 26 ++ columnLabels ticks v 8 := List.reverse_append

/-- The samples of a sweep: each entry once, with its value. -/
theorem smp_mem_sweepEvents_reverse {ticks : Nat} {v : Col → Row → Bool} {c : Col} {r : Row} {b : Bool} :
    Event.smp c r b ∈ (sweepEvents ticks v).reverse ↔ b = v c r := by
  simp only [sweepEvents, columnEvents, List.mem_reverse, List.mem_append, List.mem_flatMap, List.mem_map,
    List.mem_replicate, mem_allCols, mem_allRows, true_and, Event.smp.injEq, reduceCtorEq, and_false, exists_false, false_or,
    or_false]
  exact ⟨fun ⟨_, _, hc, hr, hb⟩ => by rw [← hc, ← hr, hb], fun hb => ⟨c, r, rfl, rfl, hb.symm⟩⟩

/-- The level of entry (c, r) at its own step t(c, r) of the sweep that begins in `s` (R192). -/
def sweepLevel (s : State) (c : Col) (r : Row) : Bool :=
  levelAt s.par c (s.tick + c.val * (35 + s.par.settleTicks) + 26 + s.par.settleTicks + r.val) r

/-- `t` is the run at the frame of column `c` in the sweep that begins in `s`. -/
structure AtColumn (s : State) (c : Col) (t : State) : Prop where
  run : stepN (c.val * (35 + s.par.settleTicks)) s = .next t
  ph : t.ph = .act
  col : t.col = c
  dpos : t.dpos = 0
  trace : t.trace = columnLabels s.par.settleTicks (sweepLevel s) c.val ++ s.trace

/-- A column of a sweep, with the levels of its steps. -/
theorem stepN_sweepColumn {s t : State} {c : Col} (h : Inv s) (hl : s.level = .l0) (hat : AtColumn s c t) :
    ∃ u, stepN ((c.val + 1) * (35 + s.par.settleTicks)) s = .next u ∧ AfterColumn c u
      ∧ u.trace = columnLabels s.par.settleTicks (sweepLevel s) (c.val + 1) ++ s.trace := by
  obtain ⟨hrun, hp, rfl, hd, htrace⟩ := hat
  have hpar : t.par = s.par := stepN_par hrun
  obtain ⟨u, hcol, hafter, hevents⟩ := stepN_column (v := sweepLevel s) (inv_stepN h hrun) ((stepN_level hrun).trans hl) hp
    hd fun r => by rw [sweepLevel, hpar, stepN_tick hrun]
  rw [hpar] at hcol hevents
  refine ⟨u, ?_, hafter, by rw [hevents, htrace, columnLabels_succ, List.append_assoc]⟩
  rw [Nat.add_mul, Nat.one_mul, stepN_add _ _ hrun, hcol]

/-- The columns of a sweep follow each other (T6). -/
theorem exists_atColumn {s : State} (h : Inv s) (hl : s.level = .l0) (hp : s.ph = .act) (hc : s.col = 0) (hd : s.dpos = 0)
    (c : Col) : ∃ t, AtColumn s c t := by
  induction c using Fin.induction with
  | zero => exact ⟨s, by simp [stepN], hp, hc, hd, rfl⟩
  | succ c ih =>
    obtain ⟨t, hat⟩ := ih
    obtain ⟨u, hrun, hafter, htrace⟩ := stepN_sweepColumn h hl hat
    obtain ⟨hph, hcol⟩ := hafter.next c.isLt
    exact ⟨u, hrun, hph, hcol.trans Fin.coeSucc_eq_succ, hafter.dpos, htrace⟩

/-- The clear frame at L0 (R186). -/
theorem stepN_clearFrame {s : State} (h : Inv s) (hl : s.level = .l0) (hp : s.ph = .dea) (hd : s.dpos = 0) :
    ∃ t, stepN 26 s = .next t ∧ t.ph = .idle ∧ t.trace = frameLabels clearPattern 26 ++ s.trace := by
  obtain ⟨i, hrun⟩ := stepN_frame h (framePattern_eq_clear.mpr hp) hl hd
  refine ⟨_, hrun, ?_, frameDone_trace _⟩
  rw [frameDone_dea (by simpa [frameRun, afterEvents] using hp)]

/-- A sweep at L0: its steps, and its events with the level of each entry at the entry's own step. -/
theorem stepN_sweep {s : State} (h : Inv s) (hl : s.level = .l0) (hp : s.ph = .act) (hc : s.col = 0) (hd : s.dpos = 0) :
    ∃ t, stepN (306 + 8 * s.par.settleTicks) s = .next t ∧ t.ph = .idle
      ∧ t.trace = (sweepEvents s.par.settleTicks (sweepLevel s)).reverse ++ s.trace := by
  obtain ⟨t, hat⟩ := exists_atColumn h hl hp hc hd 7
  obtain ⟨u, hcols, hafter, hevents⟩ := stepN_sweepColumn h hl hat
  obtain ⟨hdea, -⟩ := hafter.sweep rfl
  obtain ⟨w, hclear, hidle, hlabels⟩ :=
    stepN_clearFrame (inv_stepN h hcols) ((stepN_level hcols).trans hl) hdea hafter.dpos
  have hlen : 306 + 8 * s.par.settleTicks = ((7 : Col).val + 1) * (35 + s.par.settleTicks) + 26 := by simp; omega
  refine ⟨w, by rw [hlen, stepN_add _ _ hcols, hclear], hidle, ?_⟩
  rw [hlabels, hevents, sweepEvents_reverse, List.append_assoc]
  rfl

/-- The table after a sweep holds the level of each entry at the entry's own step. -/
theorem tblRead_after_sweep {n : Nat} {s t : State} (hrun : stepN n s = .next t)
    (htrace : t.trace = (sweepEvents s.par.settleTicks (sweepLevel s)).reverse ++ s.trace) (c : Col) (r : Row) :
    tblRead c r t = sweepLevel s c r :=
  tblRead_of_trace hrun htrace fun _ => smp_mem_sweepEvents_reverse

/-- Settles O54: the table is read off the sweep's samples. -/
theorem sweepSamplesEveryKeyAtItsStep : Obligations.SweepSamplesEveryKeyAtItsStep := by
  intro s h hl hp hc hd
  obtain ⟨t, hrun, hidle, htrace⟩ := stepN_sweep h hl hp hc hd
  exact ⟨t, hrun, hidle, tblRead_after_sweep hrun htrace⟩

/-- Settles O55: the sweep's events, the values sampled being the table's at its end. -/
theorem sweepTraceIsFixed : Obligations.SweepTraceIsFixed := by
  intro s h hl hp hc hd
  obtain ⟨t, hrun, hidle, htrace⟩ := stepN_sweep h hl hp hc hd
  have htable : (fun c r => tblRead c r t) = sweepLevel s := funext₂ (tblRead_after_sweep hrun htrace)
  exact ⟨t, hrun, hidle, htable ▸ htrace⟩

end Sys2Proof.Machine
end

section
/-! O22 and O34: the table writer (R210, R211). SMP is one table write, at its place and away from it, and no other step writes
the table. -/

namespace Sys2Proof.Machine

/-! ### What SMP does to the state (R210) -/

/-- The position after a sample differs in phase, column and row only (T5, T6, T7). -/
theorem sampleAdvance_frame (s : State) :
    sampleAdvance s = { s with
      ph := (sampleAdvance s).ph, col := (sampleAdvance s).col, row := (sampleAdvance s).row } := by
  unfold sampleAdvance
  split
  · rfl
  · split <;> rfl

/-- At its place or away from it, SMP makes the one table write of R210 and leaves everything else but the position and the count
of steps since the last commit. -/
theorem exec_smp_write (c : Col) (r : Row) (s : State) :
    ∃ t, exec (.smp c r) s = .next t ∧ t.snap = (tblWrite c r (pinRead r s) s).snap
      ∧ t = { s with snap := t.snap, ph := t.ph, col := t.col, row := t.row, since := s.since + 1 } := by
  by_cases hplace : s.ph = .smp ∧ s.col = c ∧ s.row = r
  · obtain ⟨hp, rfl, rfl⟩ := hplace
    refine ⟨_, exec_smp_place hp, by simp, ?_⟩
    rw [sampleAdvance_frame]
    rfl
  · exact ⟨_, exec_smp_away hplace, rfl, rfl⟩

/-- Settles O22: the state after SMP has the table after one write, read back at its own address and unchanged at every other;
over any other table SMP reads the same level, since the read does not look at the table. -/
theorem sampleWritesOneEntry : Obligations.SampleWritesOneEntry := by
  intro c r s
  obtain ⟨t, hexec, hsnap, hframe⟩ := exec_smp_write c r s
  have htable (c' : Col) (r' : Row) : tblRead c' r' t = if c' = c ∧ r' = r then pinRead r s else tblRead c' r' s :=
    (tblRead_congr hsnap c' r').trans (tblRead_tblWrite c c' r r' _ s)
  refine ⟨t, hexec, (htable c r).trans (if_pos ⟨rfl, rfl⟩), fun c' r' hne => (htable c' r').trans (if_neg hne),
    fun a ha => ?_, fun m => exec_smp_read c r { s with snap := m }, hframe⟩
  rw [hsnap]
  exact Memory.read_write_other _ _ a _ ha

/-! ### Which step writes the table (R211) -/

/-- A step outside SMP leaves the table. -/
theorem step_snap {s t : State} (h : step s = .next t) (hp : s.ph ≠ .smp) : t.snap = s.snap := by
  obtain ⟨u, hu, rfl⟩ := step_effect h
  exact (endStep_snap s u).trans (effect_snap hu hp)

/-- Settles O34: a step outside SMP leaves the table; in SMP an entry whose read changes is the one that the step's event
samples. -/
theorem onlySampleWritesTheTable : Obligations.OnlySampleWritesTheTable := by
  refine ⟨fun _ _ => step_snap, fun s t h c r hchange => ?_, fun _ _ => rfl⟩
  by_cases hp : s.ph = .smp
  · refine ⟨hp, of_not_not fun hother => hchange ?_⟩
    have hnone : sampledValue c r (.smp s.col s.row (pinRead s.row s)) = none := if_neg hother
    rw [step_tblRead h, eventOf_smp hp, hnone, Option.getD_none]
  · exact absurd (tblRead_congr (step_snap h hp) c r) hchange

end Sys2Proof.Machine
end

section
/-! O27: the Reporter's cadence gate in IDLE (R187, R229). -/

namespace Sys2Proof.Machine

/-- A period or more after the last report the gate emits one, and LAST is the clock at the emission. -/
theorem reporterGate_open {s : State} (h : 1000 ≤ s.inp.now - s.last) :
    reporterGate s = { s with reports := report s :: s.reports, last := s.inp.now } :=
  if_pos (gateOpen_iff.mpr (by omega))

/-- Less than a period after the last report the gate does nothing. -/
theorem reporterGate_shut {s : State} (h : s.inp.now - s.last < 1000) : reporterGate s = s :=
  if_neg fun hopen => by have := gateOpen_iff.mp hopen; omega

/-- The clock never goes back: a step adds to NOW. -/
theorem step_now_le {s t : State} (h : step s = .next t) : s.inp.now ≤ t.inp.now := by
  rw [step_inp h]
  exact Nat.le_add_right _ _

/-- Settles O27: in IDLE YIELD is the gate, shut or open, and the start of the next sweep. -/
theorem yieldRunsTheReportersGate : Obligations.YieldRunsTheReportersGate := by
  refine ⟨fun s hp hclock => ?_, fun _ _ => step_now_le, rfl⟩
  rw [exec_yield_place hp hclock]
  refine ⟨fun hshut => ?_, fun hopen => ?_⟩
  · rw [reporterGate_shut hshut, passed]
  · rw [reporterGate_open hopen, passed]

end Sys2Proof.Machine
end

section
/-! O29: the lines of a report (R230). -/

namespace Sys2Proof.Machine

/-- The nine value rows follow the header and the column indices, in row order. -/
theorem report_valueRow (s : State) (r : Row) : (report s)[2 + r.val]? = some (reportRow s r) := by
  have hrows : (report s)[2 + r.val]? = (allRows.map (reportRow s) ++ [.separator])[r.val]? := by
    simp [report, Nat.add_comm 2]
  rw [hrows, List.getElem?_append_left (by simp [allRows]), List.getElem?_map, allRows_getElem, Option.map_some]

/-- Settles O29: the value rows stand at lines 3 to 11; the other three lines are the same in every state. -/
theorem reportHasTwelveLines : Obligations.ReportHasTwelveLines :=
  fun s => ⟨rfl, rfl, rfl, report_valueRow s, rfl⟩

end Sys2Proof.Machine
end

section
/-! O51: after its first frame a run no longer depends on the draws of a reset (R262). The frame overwrites SER, LAT, SH and Q, and
the inputs supplied meanwhile follow from the count and the inputs before. -/

namespace Sys2Proof.Machine

/-- Two runs of as many steps from the same count and the same inputs end with the same inputs, whatever the states are
(log 2). -/
theorem stepN_inp_congr {n : Nat} {s s' t t' : State} (hrun : stepN n s = .next t) (hrun' : stepN n s' = .next t')
    (htick : s.tick = s'.tick) (hinp : s.inp = s'.inp) : t.inp = t'.inp := by
  induction n generalizing s s' with
  | zero => cases hrun; cases hrun'; exact hinp
  | succ n ih =>
    obtain ⟨u, hstep, hrun⟩ := exists_step_of_stepN_succ hrun
    obtain ⟨u', hstep', hrun'⟩ := exists_step_of_stepN_succ hrun'
    have hticku : u.tick = u'.tick := by rw [stepN_tick (stepN_succ 0 hstep), stepN_tick (stepN_succ 0 hstep'), htick]
    have hinpu : u.inp = u'.inp := by rw [step_inp hstep, step_inp hstep', htick, hinp]
    exact ih hrun hrun' hticku hinpu

/-- At the start of a frame the invariants ask nothing of SER, LAT, SH and Q (R42). -/
theorem inv_frameStart_lines {s : State} (h : Inv s) (hd : s.dpos = 0) (ser lat : Bool) (sh q : Byte) :
    Inv { s with ser := ser, lat := lat, sh := sh, q := q } :=
  { h with lat_low := fun hpos : 1 ≤ s.dpos.val => absurd hpos (by simp [hd]) }

/-- Settles O51: both frames end in `settleStart`, which overwrites the four draws, with the same inputs. -/
theorem firstFrameForgetsTheResetDraws : Obligations.FirstFrameForgetsTheResetDraws := by
  intro s a b x y h hl hp hd
  obtain ⟨i, hrun⟩ := stepN_settleStart h hl hp hd
  obtain ⟨i', hrun'⟩ := stepN_settleStart (inv_frameStart_lines h hd a b x y) hl hp hd
  obtain rfl : i = i' := stepN_inp_congr hrun hrun' rfl rfl
  exact ⟨settleStart i s, hrun, hrun', rfl, rfl, rfl, rfl⟩

end Sys2Proof.Machine
end

section
/-! O52 and O53: the step counts of R285. The number of steps to the next IDLE, computed from the position at either level, goes
down by one with every step outside IDLE: so a sweep takes that many steps, and no earlier state is in IDLE. -/

namespace Sys2Proof.Machine

/-! ### The steps left to IDLE -/

/-- The steps of a frame from position `d` on: an event a step at L0, the whole frame in one at L1 (R12, R121). -/
def frameSteps : Level → FramePos → Nat
  | .l0, d => 26 - d.val
  | .l1, _ => 1

/-- The steps of a Settle with `n` ticks to take: a tick a step at L0, all of them in one at L1 (R183). -/
def settleSteps : Level → Nat → Nat
  | .l0, n => n
  | .l1, _ => 1

/-- The steps from the end of column `c` to IDLE: the columns after it and the clear frame (R185, R186). -/
def stepsAfterColumn (l : Level) (ticks : Nat) (c : Col) : Nat :=
  (7 - c.val) * (frameSteps l 0 + settleSteps l ticks + 9) + frameSteps l 0

/-- The steps left to IDLE, from any position of a sweep (R188, R285). -/
def stepsToIdle (s : State) : Nat :=
  match s.ph with
  | .act => frameSteps s.level s.dpos + settleSteps s.level s.par.settleTicks + 9
      + stepsAfterColumn s.level s.par.settleTicks s.col
  | .stl => settleSteps s.level s.stl + 9 + stepsAfterColumn s.level s.par.settleTicks s.col
  | .smp => 9 - s.row.val + stepsAfterColumn s.level s.par.settleTicks s.col
  | .dea => frameSteps s.level s.dpos
  | .idle => 0

theorem frameSteps_pos (l : Level) (d : FramePos) : 0 < frameSteps l d := by
  cases l with
  | l0 => exact Nat.sub_pos_of_lt d.isLt
  | l1 => exact Nat.one_pos

/-- No step is left in IDLE, and only there. -/
theorem stepsToIdle_eq_zero_iff {s : State} : stepsToIdle s = 0 ↔ s.ph = .idle := by
  have := frameSteps_pos s.level s.dpos
  cases hp : s.ph <;> simp only [stepsToIdle, hp, reduceCtorEq, iff_false] <;> omega

/-! ### Every step outside IDLE takes one of them -/

/-- A pin event leaves the position, the level and the parameters, which alone count. -/
theorem stepsToIdle_pinWrite (e : PinEvent) (s : State) : stepsToIdle (pinWrite e s) = stepsToIdle s := by
  simp [stepsToIdle]

theorem stepsToIdle_transmit (p : Byte) (s : State) : stepsToIdle (transmit p s) = stepsToIdle s := by
  simp [stepsToIdle]

/-- The end of a frame is its last step (T2, T9). -/
theorem stepsToIdle_frameDone {s : State} (hp : s.ph = .act ∨ s.ph = .dea) (hlast : frameSteps s.level s.dpos = 1) :
    stepsToIdle (frameDone s) + 1 = stepsToIdle s := by
  rcases hp with hp | hp
  · simp only [frameDone_act hp, stepsToIdle, hp, hlast]
    omega
  · simp only [frameDone_dea hp, stepsToIdle, hp, hlast]

/-- An event of a frame is one step of it (T1, T2, T8, T9). -/
theorem stepsToIdle_frameAdvance {s : State} (hp : s.ph = .act ∨ s.ph = .dea) (hl : s.level = .l0) :
    stepsToIdle (frameAdvance s) + 1 = stepsToIdle s := by
  by_cases hd : s.dpos.val < 25
  · have hsucc : (s.dpos + 1).val = s.dpos.val + 1 := Fin.val_add_one_of_lt (Fin.lt_def.mpr hd)
    rw [frameAdvance_inside hd]
    rcases hp with hp | hp <;> simp only [stepsToIdle, frameSteps, hp, hl, hsucc] <;> omega
  · have h25 : s.dpos.val = 25 := by omega
    rw [frameAdvance_end h25]
    exact stepsToIdle_frameDone hp (by simp [frameSteps, hl, h25])

/-- The end of Settle is its last step (T4, T3+T4). -/
theorem stepsToIdle_settleDone {s : State} (hp : s.ph = .stl) (hlast : settleSteps s.level s.stl = 1) :
    stepsToIdle (settleDone s) + 1 = stepsToIdle s := by
  simp only [settleDone, stepsToIdle, hp, hlast, Fin.val_zero]
  omega

/-- A tick is one step of Settle (T3, T4). -/
theorem stepsToIdle_settleTick {s : State} (h : Inv s) (hp : s.ph = .stl) (hl : s.level = .l0) :
    stepsToIdle (settleTick s) + 1 = stepsToIdle s := by
  have hpos := h.stl_pos hp
  by_cases hmore : 1 < s.stl
  · simp only [settleTick_more hmore, stepsToIdle, settleSteps, hp, hl]
    omega
  · rw [settleTick_end (Nat.le_of_not_lt hmore)]
    exact stepsToIdle_settleDone hp (by simp only [settleSteps, hl]; omega)

/-- Before column 7 the next column follows, and then what follows that. -/
theorem stepsAfterColumn_next (l : Level) (ticks : Nat) {c : Col} (hc : c.val < 7) :
    stepsAfterColumn l ticks c = frameSteps l 0 + settleSteps l ticks + 9 + stepsAfterColumn l ticks (c + 1) := by
  have hsucc : (c + 1).val = c.val + 1 := Fin.val_add_one_of_lt (Fin.lt_def.mpr hc)
  have hleft : 7 - c.val = 7 - (c.val + 1) + 1 := by omega
  rw [stepsAfterColumn, stepsAfterColumn, hsucc, hleft, Nat.add_mul, Nat.one_mul]
  omega

/-- A sample is one step of the column's nine (T5, T6, T7). -/
theorem stepsToIdle_sampleAdvance {s : State} (hp : s.ph = .smp) (hd : s.dpos = 0) :
    stepsToIdle (sampleAdvance s) + 1 = stepsToIdle s := by
  by_cases hrow : s.row.val < 8
  · have hsucc : (s.row + 1).val = s.row.val + 1 := Fin.val_add_one_of_lt (Fin.lt_def.mpr hrow)
    simp only [sampleAdvance_row hrow, stepsToIdle, hp, hsucc]
    omega
  have hrow : s.row.val = 8 := by omega
  by_cases hcol : s.col.val < 7
  · simp only [sampleAdvance_column hrow hcol, stepsToIdle, hp, hrow, hd, stepsAfterColumn_next _ _ hcol]
    omega
  · have hcol : s.col.val = 7 := by omega
    simp only [sampleAdvance_sweep hrow hcol, stepsToIdle, stepsAfterColumn, hp, hrow, hcol, hd]
    omega

/-- Every effect outside IDLE takes one of the steps left. -/
theorem stepsToIdle_effect {s u : State} (h : Inv s) (hu : StepEffect s u) (hi : s.ph ≠ .idle) :
    stepsToIdle u + 1 = stepsToIdle s := by
  cases hu with
  | yield hp => exact absurd hp hi
  | pin p hf hl =>
    rw [← stepsToIdle_pinWrite (eventAt p s.dpos) s]
    exact stepsToIdle_frameAdvance (by simpa using driverPhase_of_framePattern hf) (by simpa using hl)
  | frame p hf hl =>
    rw [← stepsToIdle_transmit p s]
    exact stepsToIdle_frameDone (by simpa using driverPhase_of_framePattern hf) (by simp [frameSteps, hl])
  | tick hp _ hl => exact stepsToIdle_settleTick h hp hl
  | settle hp _ hl => exact stepsToIdle_settleDone hp (by simp [settleSteps, hl])
  | sample hp =>
    have hd : s.dpos = 0 := inv_dpos_zero h (by simp [hp]) (by simp [hp])
    exact stepsToIdle_sampleAdvance (s := passed (wr _ _ _ s)) hp hd

theorem stepsToIdle_step {s t : State} (h : Inv s) (hstep : step s = .next t) (hi : s.ph ≠ .idle) :
    stepsToIdle t + 1 = stepsToIdle s := by
  obtain ⟨u, hu, rfl⟩ := step_effect hstep
  have hleft : stepsToIdle (endStep s u) = stepsToIdle u := rfl
  rw [hleft, stepsToIdle_effect h hu hi]

/-- A run that is no longer than the steps left takes as many of them as it has steps. -/
theorem stepsToIdle_stepN {n : Nat} {s t : State} (h : Inv s) (hrun : stepN n s = .next t) (hn : n ≤ stepsToIdle s) :
    stepsToIdle t + n = stepsToIdle s := by
  induction n generalizing s with
  | zero => cases hrun; rfl
  | succ n ih =>
    obtain ⟨u, hstep, hrun⟩ := exists_step_of_stepN_succ hrun
    have hi : s.ph ≠ .idle := mt stepsToIdle_eq_zero_iff.mpr (by omega)
    have hone := stepsToIdle_step h hstep hi
    rw [← hone, ← ih (stepKeepsTheStateInvariants s u h hstep) hrun (by omega), Nat.add_assoc]

/-! ### A sweep and a loop iteration, at either level -/

/-- A run never stops (R193). -/
theorem exists_stepN {s : State} (h : Inv s) (n : Nat) : ∃ t, stepN n s = .next t := by
  induction n with
  | zero => exact ⟨s, rfl⟩
  | succ n ih =>
    obtain ⟨t, hrun⟩ := ih
    obtain ⟨u, hstep⟩ := reachableStatesAlwaysStep t (inv_stepN h hrun)
    exact ⟨u, stepN_succ_of_step hrun hstep⟩

/-- At the start of a sweep `DriveInv` asks nothing of the lines (T10, R261). -/
theorem driveInv_act0 {s : State} (hp : s.ph = .act) (hc : s.col = 0) (hd : s.dpos = 0) : DriveInv s where
  column := fun hs => by simp [hp] at hs
  idle_clear := fun hs => by simp [hp] at hs
  outgoing := fun c _ hcol => by simp [hc] at hcol
  last_column := fun hs => by simp [hp] at hs
  sent := fun p _ => by simp [hd]
  data := fun p _ => by simp [hd]

theorem driveInv_stepN {n : Nat} {s t : State} (h : Inv s) (hdrive : DriveInv s) (hrun : stepN n s = .next t) : DriveInv t :=
  (stepN_keeps (P := fun u => Inv u ∧ DriveInv u)
    (fun u v ⟨h, hdrive⟩ hstep => ⟨stepKeepsTheStateInvariants u v h hstep, stepKeepsTheColumnLines u v h hdrive hstep⟩)
    ⟨h, hdrive⟩ hrun).2

/-- The step from IDLE starts the next sweep (T10). -/
theorem step_sweepStart {s t : State} (hp : s.ph = .idle) (hstep : step s = .next t) :
    t.ph = .act ∧ t.col = 0 ∧ t.dpos = 0 := by
  obtain ⟨u, hu, rfl⟩ := step_effect hstep
  cases hu with
  | yield => exact ⟨rfl, rfl, rfl⟩
  | pin p hf => simp [framePattern, hp] at hf
  | frame p hf => simp [framePattern, hp] at hf
  | tick hs => simp [hs] at hp
  | settle hs => simp [hs] at hp
  | sample hs => simp [hs] at hp

/-- From the start of a sweep with `n` steps left to IDLE: after `n` steps the run is in IDLE with every column low, not earlier,
and one step later at the start of the next sweep. -/
theorem sweep_steps {s : State} {n : Nat} (h : Inv s) (hp : s.ph = .act) (hc : s.col = 0) (hd : s.dpos = 0)
    (hn : stepsToIdle s = n) :
    (∃ t, stepN n s = .next t ∧ t.ph = .idle ∧ t.q = 0#8)
      ∧ (∀ m t, m < n → stepN m s = .next t → t.ph ≠ .idle)
      ∧ ∃ t, stepN (n + 1) s = .next t ∧ t.ph = .act ∧ t.col = 0 ∧ t.dpos = 0 := by
  obtain ⟨t, hrun⟩ := exists_stepN h n
  have hleft := stepsToIdle_stepN h hrun hn.ge
  have hidle : t.ph = .idle := stepsToIdle_eq_zero_iff.mp (by omega)
  have hclear : t.q = 0#8 := (driveInv_stepN h (driveInv_act0 hp hc hd) hrun).idle_clear hidle
  obtain ⟨u, hstep⟩ := reachableStatesAlwaysStep t (inv_stepN h hrun)
  refine ⟨⟨t, hrun, hidle, hclear⟩, fun m v hm hrun hv => ?_, u, stepN_succ_of_step hrun hstep, step_sweepStart hidle hstep⟩
  have hleft := stepsToIdle_stepN h hrun (by omega)
  have hnone := stepsToIdle_eq_zero_iff.mpr hv
  omega

/-! ### A column -/

/-- The end of a column as the step counts state it: COL one higher, or the clear frame with COL at 0 (T6, T7). -/
theorem afterColumn_position {c : Col} {t : State} (h : AfterColumn c t) :
    (c.val < 7 → t.ph = .act ∧ t.col.val = c.val + 1) ∧ (c.val = 7 → t.ph = .dea ∧ t.col = 0) := by
  refine ⟨fun hc => ?_, h.sweep⟩
  obtain ⟨hp, hcol⟩ := h.next hc
  exact ⟨hp, hcol ▸ Fin.val_add_one_of_lt (Fin.lt_def.mpr hc)⟩

/-- A column at L1: its frame, its Settle and nine samples. -/
theorem stepN_columnL1 {s : State} (h : Inv s) (hl : s.level = .l1) (hp : s.ph = .act) :
    ∃ t, stepN 11 s = .next t ∧ AfterColumn s.col t := by
  have hsck : s.sck = false := inv_sck_low h (.inl (by simp [h.l1_whole hl]))
  have hframe := step_frame h (framePattern_eq_cpat.mpr ⟨hp, rfl⟩) hl
  rw [transmit_cpat s.col hsck, frameDone_act (by exact hp)] at hframe
  have hstl := stepKeepsTheStateInvariants _ _ h hframe
  have hrow : s.row = 0 := inv_row_zero h (by simp [hp])
  have hsettle := step_of_inv hstl (.settle rfl hrow hl)
  have hsmp := stepKeepsTheStateInvariants _ _ hstl hsettle
  obtain ⟨t, hsamples, hafter, -⟩ :=
    stepN_samples (v := fun r => levelAt _ _ (_ + r.val) r) hsmp rfl rfl (freshInputs_of_step hsettle) (fun _ => rfl) rfl
  exact ⟨t, (stepN_succ 10 hframe).trans ((stepN_succ 9 hsettle).trans hsamples), hafter⟩

/-! ### The counts of R285 -/

theorem stepsToIdle_sweep_l0 {s : State} (hl : s.level = .l0) (hp : s.ph = .act) (hc : s.col = 0) (hd : s.dpos = 0) :
    stepsToIdle s = 306 + 8 * s.par.settleTicks := by
  simp only [stepsToIdle, stepsAfterColumn, frameSteps, settleSteps, hl, hp, hc, hd, Fin.val_zero]
  omega

theorem stepsToIdle_sweep_l1 {s : State} (hl : s.level = .l1) (hp : s.ph = .act) (hc : s.col = 0) : stepsToIdle s = 89 := by
  simp only [stepsToIdle, stepsAfterColumn, frameSteps, settleSteps, hl, hp, hc, Fin.val_zero]

/-- Settles O52: the frame and the column by their runs, the sweep by the steps left to IDLE. -/
theorem stepCountsAtL0 : Obligations.StepCountsAtL0 := by
  intro s h hl hp hd
  refine ⟨?_, ?_, fun hc => ?_⟩
  · obtain ⟨i, hrun⟩ := stepN_settleStart h hl hp hd
    exact ⟨_, hrun, rfl, rfl, rfl⟩
  · obtain ⟨t, hrun, hafter, -⟩ := stepN_column (v := fun c r => levelAt _ c (_ + r.val) r) h hl hp hd fun _ => rfl
    exact ⟨t, hrun, hafter.dpos, afterColumn_position hafter⟩
  · rw [show 307 + 8 * s.par.settleTicks = 306 + 8 * s.par.settleTicks + 1 by omega]
    exact sweep_steps h hp hc hd (stepsToIdle_sweep_l0 hl hp hc hd)

/-- Settles O53: the column by its run, the sweep by the steps left to IDLE. -/
theorem stepCountsAtL1 : Obligations.StepCountsAtL1 := by
  intro s h hl hp
  refine ⟨?_, fun hc => ?_⟩
  · obtain ⟨t, hrun, hafter⟩ := stepN_columnL1 h hl hp
    exact ⟨t, hrun, afterColumn_position hafter⟩
  · obtain ⟨hidle, hearlier, t, hrun, hact, hcol, -⟩ :=
      sweep_steps h hp hc (h.l1_whole hl) (stepsToIdle_sweep_l1 hl hp hc)
    exact ⟨hidle, hearlier, t, hrun, hact, hcol⟩

end Sys2Proof.Machine
end

section
/-! O38, O56 and O57: the reset, a restart in mid-run and a launch (R260, R261, R264, R266). -/

namespace Sys2Proof.Machine

/-! ### Reset and restart -/

/-- Settles O38: the reset position is event 0 of the frame of ACT 0. -/
theorem resetIsTheStartOfAct0 : Obligations.ResetIsTheStartOfAct0 := by
  obtain ⟨-, hstep⟩ := stepRunsThePinEvent State.reset (cpat 0) ⟨.lat, false⟩ rfl rfl (.inl ⟨rfl, rfl⟩) rfl
  exact ⟨fun _ _ => rfl, rfl, rfl, rfl, rfl, rfl, rfl, rfl, rfl, hstep⟩

/-- A restart keeps the parameters, the level and the count, and nothing else (logs 21 and 28). -/
theorem restart_congr {s t : State} (htick : t.tick = s.tick) (hpar : t.par = s.par) (hlevel : t.level = s.level) :
    restart t = restart s := by
  rw [restart, restart, htick, hpar, hlevel]

/-- A restart meets the invariants with any parameters that ask for a tick of Settle, and at either level. -/
theorem inv_restart {s : State} (h : 1 ≤ s.par.settleTicks) : Inv (restart s) :=
  { inv_resetAt (s.tick + 1) with
    settle_pos := h
    stl_le := Nat.zero_le _
    l1_whole := fun _ => rfl
    settling := nofun
    delayed := nofun }

/-- Settles O56: what a restart leaves is the reset state at the next count, but for the parameters and the level, which no
invariant of a reset looks at but SETTLE_TICKS >= 1. -/
theorem restartDiscardsTheRun : Obligations.RestartDiscardsTheRun := fun s =>
  ⟨fun _ _ => rfl, rfl, rfl, rfl, rfl, rfl, rfl, rfl, fun _ => restart_congr,
    fun h => ⟨inv_restart h.settle_pos, { driveInv_resetAt (s.tick + 1) with }, { tableIsTrace_resetAt (s.tick + 1) with }⟩⟩

/-! ### Launch -/

/-- The boot requirements that the state shows (R266 (b), (d), (f)). -/
theorem bootReady_iff {s : State} : bootReady s = true ↔ s.sck = false ∧ s.snap = [] ∧ s.last = 0 := by
  simp [bootReady, and_assoc]

/-- Settles O57: the reset state meets the three requirements, and each disjunct misses one of them. -/
theorem launchChecksTheBootRequirements : Obligations.LaunchChecksTheBootRequirements := by
  refine ⟨if_pos (bootReady_iff.mpr ⟨rfl, rfl, rfl⟩), fun s hmiss => if_neg fun hready => ?_⟩
  obtain ⟨hsck, hsnap, hlast⟩ := bootReady_iff.mp hready
  simp [hsck, hsnap, hlast] at hmiss

end Sys2Proof.Machine
end
